-- ==== Sys2Proof/Word.lean ====
section
/-! DEFINITION. The widths of the machine: a byte is 8 bits, a word 32 bits (00_scope.md R5, R7). -/

namespace Sys2Proof

/-- "8-bit byte" (00_scope.md R5). -/
abbrev Byte := BitVec 8

/-- "32-bit word": a GPR, HI, LO, an FPR's low word, an address, an instruction (00_scope.md R5). -/
abbrev Word := BitVec 32

/-- The number of a general-purpose register, 0 to 31 (10_state.md R20). -/
abbrev Reg := BitVec 5

/-- The number of a floating-point register, 0 to 31 (10_state.md R28). -/
abbrev FReg := BitVec 5

/-- The 16-bit immediate or offset field (30_encoding.md R63, R67). -/
abbrev Imm := BitVec 16

end Sys2Proof
end

