-- ==== Sys2Proof/Config.lean ====
section
/-! DEFINITION. What the launch of a run fixes (the OPEN parameters of 00_scope.md R5), and the free
values, which nothing fixes. The parameters are plain data and travel in `State.params`, so that one
step function serves every value of them and a statement about every state holds for every value
(log entry 4). A free value is an opaque constant with no body: no proof can learn what it is. -/

namespace Sys2Proof

/-- ENDIAN (20_memory.md R43). -/
inductive Endian where
  | big
  | little
deriving DecidableEq, Repr

/-- The `kind` of an access (20_memory.md R42). -/
inductive AccessKind where
  | load
  | store
  | fetch
deriving DecidableEq, Repr

/-- The `n` of an access: 1 or 4 bytes (20_memory.md R42, R44). -/
inductive Width where
  | byte
  | word
deriving DecidableEq, Repr

/-- FP_RM: RN nearest, ties to even; RZ toward zero; RP toward plus infinity; RM toward minus infinity
(41_floating_point.md R121). -/
inductive RoundingMode where
  | rn
  | rz
  | rp
  | rm
deriving DecidableEq, Repr

/-- FP_SUBNORMAL (41_floating_point.md R125). -/
inductive SubnormalMode where
  | ieee
  | unimplemented
deriving DecidableEq, Repr

/-- FP_ENABLES: which of the five IEEE conditions raise (41_floating_point.md R122). -/
structure FpEnables where
  invalid : Bool
  divByZero : Bool
  overflow : Bool
  underflow : Bool
  inexact : Bool
deriving DecidableEq, Repr

/-- The exception names MemCheck may answer for a load or a fetch (20_memory.md R42). -/
inductive ReadAnswer where
  | tlbRefill
  | tlbInvalid
  | busError
  | watch
  | addressError
deriving DecidableEq, Repr

/-- The exception names MemCheck may answer for a store. TLBModified is "returned only for kind = store"
(20_memory.md R42 (b)): no other type can name it. -/
inductive StoreAnswer where
  | tlbRefill
  | tlbInvalid
  | tlbModified
  | busError
  | watch
  | addressError
deriving DecidableEq, Repr

/-- One line of a MemCheck table: accesses of this width at an address from `lo` to `hi` inclusive get
this answer (`none` is "ok"). -/
structure CheckRule (α : Type) where
  lo : Word
  hi : Word
  width : Width
  answer : Option α
deriving DecidableEq, Repr

/-- A MemCheck table: the first rule that covers the access answers, else `otherwise`. DESIGN CHOICE (log
entry 5): R42's MemCheck is a function; its arguments are finitely many, so a table holds any such
function and keeps the state plain data. -/
structure CheckTable (α : Type) where
  rules : List (CheckRule α)
  otherwise : Option α
deriving DecidableEq, Repr

/-- MemCheck(addr, n, kind) (20_memory.md R42), one table for each kind. -/
structure MemCheck where
  load : CheckTable ReadAnswer
  store : CheckTable StoreAnswer
  fetch : CheckTable ReadAnswer
deriving DecidableEq, Repr

/-- The OPEN parameters of 00_scope.md R5, the values a launch gives (70_reset_and_hazards.md R261). -/
structure Params where
  endian : Endian
  entryPc : Word
  memCheck : MemCheck
  cp1Usable : Bool
  fpRm : RoundingMode
  fpEnables : FpEnables
  fpSubnormal : SubnormalMode
deriving DecidableEq, Repr

/-- A MemCheck that admits every access (DESIGN CHOICE, log entry 5, unsafe: a platform may lack an
address this admits). -/
def MemCheck.admitAll : MemCheck where
  load := { rules := [], otherwise := none }
  store := { rules := [], otherwise := none }
  fetch := { rules := [], otherwise := none }

/-- "FP_ENABLES: default empty" (00_scope.md R5). -/
def FpEnables.none : FpEnables where
  invalid := false
  divByZero := false
  overflow := false
  underflow := false
  inexact := false

/-- The parameters of `State.reset`. CP1_USABLE, FP_RM, FP_ENABLES and FP_SUBNORMAL are the defaults of
00_scope.md R5 (log entry 4). ENDIAN, ENTRY_PC and MemCheck have no default in the spec: DESIGN CHOICE,
log entries 2, 3 and 5, unsafe for a claim about the run from `State.reset`. -/
def Params.reset : Params where
  endian := .big
  entryPc := 0x00400000#32
  memCheck := MemCheck.admitAll
  cp1Usable := true
  fpRm := .rn
  fpEnables := FpEnables.none
  fpSubnormal := .unimplemented

/-- The two register operands an instruction can read: `first` is rs, base or fs, `second` is rt or ft. No
instruction reads one of them twice. -/
inductive Operand where
  | first
  | second
deriving DecidableEq, Repr

/-- FREE VALUE (log entry 7): what instruction number `n` of the run draws when it reads this operand from a
register that is unspecified (10_state.md R35). -/
opaque Config.freeWord : Nat → Operand → Word

/-- FREE VALUE (log entry 11): the sign and the fraction that instruction number `n` of the run draws when it reads
this operand from a register that holds some NaN (41_floating_point.md R124, R131). -/
opaque Config.freeNaN : Nat → Operand → Word

end Sys2Proof
end

