-- ==== Sys2Proof/Machine/State.lean ====
section
/-! DEFINITION. The state of the machine, the exception record, and the reasons a step can stop.
"The complete state of the machine is: 32 GPRs, HI, LO, pc, npc, ds, 32 FPRs, the rounding mode (a
parameter, see rule R30), and memory" (10_state.md, introduction), the set WRITTEN of 20_memory.md R50, the
parameters of the launch, and one counter of the model's own. -/

namespace Sys2Proof.Machine

/-- The causes of FloatingPoint, in the order in which they are reported (60_exceptions.md R221, R231). -/
inductive FpCause where
  | unimplementedOperation
  | invalidOperation
  | divisionByZero
  | overflow
  | underflow
  | inexact
deriving DecidableEq, Repr

/-- The exception names (00_scope.md R13, 60_exceptions.md R221). "The spec identifies an exception by its
name, not by a number." -/
inductive ExceptionName where
  | integerOverflow
  | systemCall
  | addressError
  | tlbRefill
  | tlbInvalid
  | tlbModified
  | busError
  | watch
  | reservedInstruction
  | coprocessorUnusable
  | floatingPoint (cause : FpCause)
deriving DecidableEq, Repr

/-- What an instruction says when it raises: `raise <Name>(info)` (00_scope.md R13), with the info that is
not the machine's own (60_exceptions.md R238). -/
structure Cause where
  name : ExceptionName
  kind : Option AccessKind
  badaddr : Option Word
  cop : Option Nat
deriving DecidableEq, Repr

/-- The exception record, field by field (60_exceptions.md R238). It is "an outcome of the run and not a
register" (10_state.md R33). -/
structure ExceptionRecord where
  /-- "the exception name of rule R221, with the FloatingPoint cause if any". -/
  name : ExceptionName
  /-- "address of the raising instruction (pc at the start of the step)". -/
  pc : Word
  /-- "the value of ds at the start of the step". -/
  ds : Bool
  /-- "pc if not ds, pc - 4 if ds": the branch (43_branch_jump.md R165). -/
  restart : Word
  /-- "the fetched instruction word, when the fetch succeeded". -/
  word : Option Word
  /-- "load, store or fetch, for AddressError, TLB*, BusError, Watch". -/
  kind : Option AccessKind
  /-- "the effective address or fetch address, for the same". -/
  badaddr : Option Word
  /-- "1, for CoprocessorUnusable". -/
  cop : Option Nat
deriving DecidableEq, Repr

/-- Why a run ends (70_reset_and_hazards.md R272): `Exception(rec)` or `Fault(reason)`. -/
inductive Fault where
  /-- The run ended with an exception and this record: "An exception is a fault of the run in the modelling
  guide's sense: no step follows it" (60_exceptions.md R238). Raised by every step whose fetch or instruction
  raises. Safe: hardware goes on into a handler of which the spec says nothing (R239). -/
  | exception (rec : ExceptionRecord)
  /-- A branch or jump in the delay slot of a branch or jump (43_branch_jump.md R152). Raised by the ten control
  transfers when `ds` is true. Safe: the source calls the operation UNPREDICTABLE. -/
  | controlTransferInDelaySlot
  /-- JALR with rs = rd (43_branch_jump.md R162). Raised by JALR. Safe: the source calls the result
  UNPREDICTABLE. -/
  | jalrSameRegister
  /-- A fetch that overlaps WRITTEN, self-modified code (20_memory.md R51, R56). Raised by the fetch. Safe: the
  model stops where hardware might fetch either the old or the new word. -/
  | fetchOfWrittenLocation
  /-- A fetch of a word with a byte that nothing has defined (20_memory.md R51). Raised by the fetch. Safe: "an
  undetermined instruction is ... an unknown action of the whole machine". -/
  | fetchOfUnspecifiedByte
deriving DecidableEq, Repr

/-- Why a step has no meaning. No instruction of the table is refused. -/
inductive Refusal where
  /-- The instruction of this mnemonic has no meaning in the model. Raised by a refused arm of `exec` only, of
  which there is none. Safe. -/
  | notModelled (mnemonic : String)
deriving DecidableEq, Repr

/-- The bytes that the launch image or a store has defined, as (address, byte) pairs with strictly rising
addresses. An address that is not listed holds no specified byte (10_state.md R34, R35): `Memory.read` in
Machine/Ops.lean is the one place that says so. -/
structure Memory where
  cells : List Host.Cell
deriving DecidableEq, Repr

/-- What HI or LO holds: a value, or the spec's `UNSPEC_32`, "a location holding no known value" (00_scope.md
R14; 10_state.md R23, R35). -/
inductive SpecialReg where
  | holds (v : Word)
  | unspecified
deriving DecidableEq, Repr

/-- What a GPR or an FPR holds. -/
inductive Contents where
  /-- A value. -/
  | holds (v : Word)
  /-- `UNSPEC_32`: every read of it is a free draw (00_scope.md R14; 10_state.md R35). -/
  | unspecified
  /-- A NaN pattern, "whose sign and fraction are unspecified": every read of it is a free draw among NaN patterns
  (41_floating_point.md R124; 93_implementation_defined.md U19, U33). -/
  | someNaN
deriving DecidableEq, Repr

/-- The registers at the start of a run: 10_state.md R34 has them unspecified, and "A launch may give chosen registers
known values". -/
structure Registers where
  gpr : Vector Contents 32
  hi : SpecialReg
  lo : SpecialReg
  fpr : Vector Contents 32
deriving DecidableEq, Repr

/-- The machine. -/
structure State where
  /-- The launch's parameters, "for the whole run" (70_reset_and_hazards.md R260): no step changes them. -/
  params : Params
  /-- GPRs 0 to 31 (10_state.md R20, R35). Entry 0 is never read and never written (R21). -/
  gpr : Vector Contents 32
  /-- HI (10_state.md R23). -/
  hi : SpecialReg
  /-- LO (10_state.md R23). -/
  lo : SpecialReg
  /-- The low words of FPRs 0 to 31 (10_state.md R28, R35). -/
  fpr : Vector Contents 32
  /-- The address of the instruction of this step (10_state.md R24). -/
  pc : Word
  /-- The address of the instruction of the next step (10_state.md R25). -/
  npc : Word
  /-- Whether the instruction at `pc` stands in a delay slot (10_state.md R25). -/
  ds : Bool
  /-- Memory (10_state.md R32). -/
  mem : Memory
  /-- WRITTEN, the byte addresses stored to since the start of the run, strictly rising (20_memory.md R50). -/
  written : List Nat
  /-- The model's own: the number of the next instruction, by which its free draws are named (log entry 7). -/
  draws : Nat
deriving DecidableEq, Repr

/-- "unspecified (`UNSPEC_32` each)": the registers of a launch that gives none a value (10_state.md R34). -/
def Registers.unspecified : Registers where
  gpr := Vector.replicate 32 .unspecified
  hi := .unspecified
  lo := .unspecified
  fpr := Vector.replicate 32 .unspecified

/-- Every register 0. DESIGN CHOICE (log entry 1, unsafe): the registers of `State.reset`, for which 10_state.md R34
gives no value. -/
def Registers.zero : Registers where
  gpr := Vector.replicate 32 (.holds 0#32)
  hi := .holds 0#32
  lo := .holds 0#32
  fpr := Vector.replicate 32 (.holds 0#32)

/-- The start of a run with these parameters, registers and memory image (10_state.md R34, 70_reset_and_hazards.md
R260, R261). GPR 0, pc, npc, ds and WRITTEN are as R34 and R261 say. -/
def State.launch (p : Params) (r : Registers) (image : Memory) : State where
  params := p
  gpr := r.gpr.set 0 (.holds 0#32)
  hi := r.hi
  lo := r.lo
  fpr := r.fpr
  pc := p.entryPc
  npc := p.entryPc + 4#32
  ds := false
  mem := image
  written := []
  draws := 0

/-- The machine right after reset: a launch with the parameters of `Params.reset`, zero in every register and no
memory image. -/
def State.reset : State := State.launch Params.reset Registers.zero { cells := [] }

end Sys2Proof.Machine
end

