-- ==== Sys2Proof/Machine/Flags.lean ====
section
/-! DEFINITION. The machine has no flags (10_state.md R31): "overflow in ADD, ADDI and SUB raises an
exception instead". What stands in their place is here: signed overflow, and the conditions of a
floating-point operation with the rule that turns them into an exception (41_floating_point.md R122). -/

namespace Sys2Proof.Machine

/-- `t < -2^31 or t > 2^31 - 1` (40_integer_arithmetic.md R101, R102, R105). -/
def signedOverflow (t : Int) : Bool := decide (t < -2 ^ 31 ∨ t > 2 ^ 31 - 1)

/-- What a floating-point operation finds out about its operands and its exact result, before
FP_SUBNORMAL and FP_ENABLES decide which conditions of 41_floating_point.md R122 arise. -/
structure FpFacts where
  /-- InvalidOperation arises (R122, R124). -/
  invalid : Bool
  /-- DivisionByZero arises (R122). -/
  divByZero : Bool
  /-- Overflow arises (R122). -/
  overflow : Bool
  /-- The exact result is "non-zero and smaller in magnitude than 2^-126" (R122, R125). -/
  tiny : Bool
  /-- "the rounded result differs from the exact one" (R122). -/
  inexact : Bool
  /-- An operand is subnormal (R125). -/
  subnormalOperand : Bool
deriving DecidableEq, Repr

/-- The result of a floating-point operation: a pattern, or "a quiet NaN, pattern unspecified"
(41_floating_point.md R122, R124). -/
inductive FpResult where
  | bits (w : Word)
  | someNaN
deriving DecidableEq, Repr

/-- UnimplementedOperation arises: FP_SUBNORMAL is `unimplemented`, and an operand is subnormal or the exact
result is tiny (41_floating_point.md R125). -/
def unimplementedArises (p : Params) (f : FpFacts) : Bool :=
  p.fpSubnormal == .unimplemented && (f.subnormalOperand || f.tiny)

/-- Underflow arises under `ieee`: "when that rounding is inexact (or, if Underflow is in FP_ENABLES, whenever
the result is tiny)" (41_floating_point.md R125). -/
def underflowArises (p : Params) (f : FpFacts) : Bool :=
  p.fpSubnormal == .ieee && f.tiny && (f.inexact || p.fpEnables.underflow)

/-- The cause an operation raises, if any: UnimplementedOperation whenever it arises, then the first
condition that arises and is in FP_ENABLES, "in the order InvalidOperation, DivisionByZero, Overflow,
Underflow, Inexact" (41_floating_point.md R122, FPFinish). -/
def fpRaised (p : Params) (f : FpFacts) : Option FpCause :=
  if unimplementedArises p f then some .unimplementedOperation
  else if f.invalid && p.fpEnables.invalid then some .invalidOperation
  else if f.divByZero && p.fpEnables.divByZero then some .divisionByZero
  else if f.overflow && p.fpEnables.overflow then some .overflow
  else if underflowArises p f && p.fpEnables.underflow then some .underflow
  else if f.inexact && p.fpEnables.inexact then some .inexact
  else none

end Sys2Proof.Machine
end

