-- ==== Sys2Proof/Machine/FloatFormat.lean ====
section
/-! DEFINITION. Format S, IEEE 754 binary32 (41_floating_point.md R120), and the four correctly rounded
operations `fp_add_s`, `fp_sub_s`, `fp_mul_s`, `fp_div_s` (R121), "that depend on nothing but the mode and
the two operand patterns". Every finite value of the format is a whole number of 2^-149, the smallest
subnormal; exact results are fractions `p / q` of that unit, so that rounding is exact arithmetic on
natural numbers. -/

namespace Sys2Proof.Machine

/-! ## The format (R120) -/

/-- The sign `b[31]`. -/
def fpSign (b : Word) : Bool := b.getLsbD 31

/-- The biased exponent `e = b[30:23]`. -/
def fpExponent (b : Word) : Nat := (b.extractLsb' 23 8).toNat

/-- The fraction `m = b[22:0]`. -/
def fpFraction (b : Word) : Nat := (b.extractLsb' 0 23).toNat

/-- `e = 255` and `m` not 0. -/
def isNaN (b : Word) : Bool := fpExponent b == 255 && fpFraction b != 0

/-- `e = 255` and `m = 0`. -/
def isInf (b : Word) : Bool := fpExponent b == 255 && fpFraction b == 0

/-- `e = 0` and `m = 0`. -/
def isZero (b : Word) : Bool := fpExponent b == 0 && fpFraction b == 0

/-- `e = 0` and `m` not 0. -/
def isSubnormal (b : Word) : Bool := fpExponent b == 0 && fpFraction b != 0

/-- The magnitude of a finite pattern in units of 2^-149: `m` for a subnormal, `(2^23 + m) * 2^(e-1)` for a
normal, from the value column of R120. -/
def fpMagnitude (b : Word) : Nat :=
  if fpExponent b = 0 then fpFraction b
  else (2 ^ 23 + fpFraction b) * 2 ^ (fpExponent b - 1)

/-- The signed value of a finite pattern in units of 2^-149. -/
def fpValue (b : Word) : Int :=
  if fpSign b then -(fpMagnitude b : Int) else fpMagnitude b

/-- A pattern from its sign and its other 31 bits. -/
def fpPattern (neg : Bool) (rest : Nat) : Word :=
  BitVec.ofBool neg ++ BitVec.ofNat 31 rest

/-- Infinity with this sign. -/
def fpInfinity (neg : Bool) : Word := fpPattern neg 0x7F800000

/-- Zero with this sign. -/
def fpZero (neg : Bool) : Word := fpPattern neg 0

/-- The largest finite value with this sign, 0x7F7FFFFF (R120). -/
def fpLargest (neg : Bool) : Word := fpPattern neg 0x7F7FFFFF

/-- The NaN pattern of a draw: `e = 255`, and the drawn sign and fraction, with a fraction of 0 (which would
be an infinity) replaced. Every NaN pattern is the pattern of some draw (R124). -/
def nanOfDraw (d : Word) : Word :=
  BitVec.ofBool (fpSign d) ++ 0xFF#8 ++
    (if fpFraction d = 0 then 1#23 else BitVec.ofNat 23 (fpFraction d))

/-! ## Rounding (R121) -/

/-- Round the magnitude `p / q` (in units of 2^-149) in mode `mode`, for a result of sign `neg`. The quantum
is `2^k` units, the spacing of the format at this magnitude with the exponent unbounded above; the
rounded value is `n` quanta. The pair is the result's 31 low bits, `k * 2^23 + n`, as a number that
passes 0x7F7FFFFF when the result overflows, and whether the result is inexact. -/
def roundMagnitude (mode : RoundingMode) (neg : Bool) (p q : Nat) : Nat × Bool :=
  let k := (p / q).log2 - 23
  let d := q * 2 ^ k
  let n := p / d
  let r := p % d
  let up : Bool :=
    match mode with
    | .rn => decide (2 * r > d) || (decide (2 * r = d) && decide (n % 2 = 1))
    | .rz => false
    | .rp => !neg && decide (r ≠ 0)
    | .rm => neg && decide (r ≠ 0)
  (k * 2 ^ 23 + n + up.toNat, decide (r ≠ 0))

/-- The result of an overflow, by mode and sign (R122, the Overflow row). -/
def overflowResult (mode : RoundingMode) (neg : Bool) : Word :=
  match mode with
  | .rn => fpInfinity neg
  | .rz => fpLargest neg
  | .rp => if neg then fpLargest true else fpInfinity false
  | .rm => if neg then fpInfinity true else fpLargest false

/-- Nothing to report. -/
def FpFacts.none : FpFacts where
  invalid := false
  divByZero := false
  overflow := false
  tiny := false
  inexact := false
  subnormalOperand := false

/-- The rounded result of the exact value `(-1)^neg * p / q` units, and what there is to report: "Inexact
arises too" on overflow (R122); tiny is below 2^-126, that is 2^23 units (R125). -/
def fpRound (mode : RoundingMode) (neg : Bool) (p q : Nat) : FpResult × FpFacts :=
  let (b, inexact) := roundMagnitude mode neg p q
  let tiny := decide (p ≠ 0) && decide (p < q * 2 ^ 23)
  if b < 0x7F800000 then
    (.bits (fpPattern neg b), { FpFacts.none with tiny := tiny, inexact := inexact })
  else
    (.bits (overflowResult mode neg), { FpFacts.none with overflow := true, inexact := true })

/-- An exact result, with nothing to report. -/
def fpExact (w : Word) : FpResult × FpFacts := (.bits w, FpFacts.none)

/-- An invalid operation: "a quiet NaN, pattern unspecified" (R122). -/
def fpInvalid : FpResult × FpFacts := (.someNaN, { FpFacts.none with invalid := true })

/-- The part the four operations share: a NaN operand is an invalid operation ("treats every NaN operand as
raising InvalidOperation when that condition is in FP_ENABLES", R124), and a subnormal operand is
noted (R125). -/
def fpBinary (a b : Word) (op : FpResult × FpFacts) : FpResult × FpFacts :=
  let r := if isNaN a || isNaN b then fpInvalid else op
  (r.1, { r.2 with subnormalOperand := isSubnormal a || isSubnormal b })

/-! ## The operations (R121, R126 to R129) -/

/-- The sign of a sum that is exactly zero: that of the operands where they agree, else +0, "except -0 when
FP_RM is RM" (R121). -/
def zeroSumSign (mode : RoundingMode) (signA signB : Bool) : Bool :=
  if signA = signB then signA else mode == .rm

/-- The sum of two patterns that are no NaN. -/
def addNumbers (mode : RoundingMode) (a b : Word) : FpResult × FpFacts :=
  if isInf a then
    if isInf b && fpSign a != fpSign b then fpInvalid else fpExact a
  else if isInf b then fpExact b
  else
    let t := fpValue a + fpValue b
    if t = 0 then fpExact (fpZero (zeroSumSign mode (fpSign a) (fpSign b)))
    else fpRound mode (decide (t < 0)) t.natAbs 1

/-- The product of two patterns that are no NaN. -/
def mulNumbers (mode : RoundingMode) (a b : Word) : FpResult × FpFacts :=
  let neg := fpSign a != fpSign b
  if isInf a || isInf b then
    if isZero a || isZero b then fpInvalid else fpExact (fpInfinity neg)
  else fpRound mode neg (fpMagnitude a * fpMagnitude b) (2 ^ 149)

/-- The quotient of two patterns that are no NaN. -/
def divNumbers (mode : RoundingMode) (a b : Word) : FpResult × FpFacts :=
  let neg := fpSign a != fpSign b
  if isInf a then
    if isInf b then fpInvalid else fpExact (fpInfinity neg)
  else if isInf b then fpExact (fpZero neg)
  else if isZero b then
    if isZero a then fpInvalid
    else (.bits (fpInfinity neg), { FpFacts.none with divByZero := true })
  else fpRound mode neg (fpMagnitude a * 2 ^ 149) (fpMagnitude b)

/-- `a XOR 0x80000000` (R131). -/
def flipSign (a : Word) : Word := a ^^^ 0x80000000#32

/-- `fp_add_s` (R121, R126): "The value in FPR ft is added to the value in FPR fs". -/
def fpAddS (mode : RoundingMode) (a b : Word) : FpResult × FpFacts :=
  fpBinary a b (addNumbers mode a b)

/-- `fp_sub_s` (R121, R127): ft is subtracted from fs, the sum of fs and ft with its sign changed. -/
def fpSubS (mode : RoundingMode) (a b : Word) : FpResult × FpFacts :=
  fpBinary a b (addNumbers mode a (flipSign b))

/-- `fp_mul_s` (R121, R128). -/
def fpMulS (mode : RoundingMode) (a b : Word) : FpResult × FpFacts :=
  fpBinary a b (mulNumbers mode a b)

/-- `fp_div_s` (R121, R129): fs is divided by ft. -/
def fpDivS (mode : RoundingMode) (a b : Word) : FpResult × FpFacts :=
  fpBinary a b (divNumbers mode a b)

end Sys2Proof.Machine
end

