-- ==== Sys2Proof/Syntax.lean ====
section
/-! DEFINITION. The 59 machine instructions, one constructor for each row of spec/opcode_table.json
(00_scope.md R3). Operands stand in the order of the assembler form (30_encoding.md R81), which is
the source's Format column; the order of the fields in the word is Decode.lean's matter. B, LA and
LI are no rows: they are expansions into these (30_encoding.md R85; Machine/Assembler.lean). -/

namespace Sys2Proof

/-- A machine instruction. Every field value is a register number or a constant of its field's width,
so every term is a word of the table (30_encoding.md R78: "Register fields that an instruction uses
accept all 32 values"). -/
inductive Instr where
  -- 40_integer_arithmetic.md
  | add (rd rs rt : Reg)
  | addi (rt rs : Reg) (imm : Imm)
  | addiu (rt rs : Reg) (imm : Imm)
  | addu (rd rs rt : Reg)
  | sub (rd rs rt : Reg)
  | subu (rd rs rt : Reg)
  | slt (rd rs rt : Reg)
  | slti (rt rs : Reg) (imm : Imm)
  | sltiu (rt rs : Reg) (imm : Imm)
  | sltu (rd rs rt : Reg)
  -- 41_floating_point.md
  | addS (fd fs ft : FReg)
  | subS (fd fs ft : FReg)
  | mulS (fd fs ft : FReg)
  | divS (fd fs ft : FReg)
  | movS (fd fs : FReg)
  | negS (fd fs : FReg)
  | mfc1 (rt : Reg) (fs : FReg)
  | mtc1 (rt : Reg) (fs : FReg)
  -- 42_logical.md
  | and (rd rs rt : Reg)
  | andi (rt rs : Reg) (imm : Imm)
  | or (rd rs rt : Reg)
  | ori (rt rs : Reg) (imm : Imm)
  | xor (rd rs rt : Reg)
  | xori (rt rs : Reg) (imm : Imm)
  | nor (rd rs rt : Reg)
  | lui (rt : Reg) (imm : Imm)
  -- 43_branch_jump.md
  | beq (rs rt : Reg) (offset : Imm)
  | bne (rs rt : Reg) (offset : Imm)
  | bgez (rs : Reg) (offset : Imm)
  | bgtz (rs : Reg) (offset : Imm)
  | blez (rs : Reg) (offset : Imm)
  | bltz (rs : Reg) (offset : Imm)
  | j (index : BitVec 26)
  | jal (index : BitVec 26)
  | jalr (rd rs : Reg)
  | jr (rs : Reg)
  -- 44_multiply_divide.md
  | mult (rs rt : Reg)
  | multu (rs rt : Reg)
  | mul (rd rs rt : Reg)
  | div (rs rt : Reg)
  | divu (rs rt : Reg)
  | mfhi (rd : Reg)
  | mflo (rd : Reg)
  -- 46_load_store.md
  | lb (rt : Reg) (offset : Imm) (base : Reg)
  | lbu (rt : Reg) (offset : Imm) (base : Reg)
  | lw (rt : Reg) (offset : Imm) (base : Reg)
  | sb (rt : Reg) (offset : Imm) (base : Reg)
  | sw (rt : Reg) (offset : Imm) (base : Reg)
  | lwc1 (ft : FReg) (offset : Imm) (base : Reg)
  | swc1 (ft : FReg) (offset : Imm) (base : Reg)
  -- 47_conditional_move.md
  | movn (rd rs rt : Reg)
  | movz (rd rs rt : Reg)
  -- 48_shift.md
  | sll (rd rt : Reg) (sa : BitVec 5)
  | sllv (rd rt rs : Reg)
  | sra (rd rt : Reg) (sa : BitVec 5)
  | srav (rd rt rs : Reg)
  | srl (rd rt : Reg) (sa : BitVec 5)
  | srlv (rd rt rs : Reg)
  -- 49_system.md
  | syscall (code : BitVec 20)
deriving DecidableEq, Repr

/-- "The branch and jump instructions are BEQ, BNE, BGEZ, BGTZ, BLEZ, BLTZ, J, JAL, JR and JALR"
(10_state.md R26): those that have a delay slot and may not stand in one (43_branch_jump.md R152). -/
def Instr.isControlTransfer : Instr → Bool
  | .beq .. | .bne .. | .bgez .. | .bgtz .. | .blez .. | .bltz .. => true
  | .j _ | .jal _ | .jalr .. | .jr _ => true
  | .add .. | .addi .. | .addiu .. | .addu .. | .sub .. | .subu .. | .slt .. | .slti .. => false
  | .sltiu .. | .sltu .. | .addS .. | .subS .. | .mulS .. | .divS .. | .movS .. | .negS .. => false
  | .mfc1 .. | .mtc1 .. | .and .. | .andi .. | .or .. | .ori .. | .xor .. | .xori .. => false
  | .nor .. | .lui .. | .mult .. | .multu .. | .mul .. | .div .. | .divu .. => false
  | .mfhi _ | .mflo _ | .lb .. | .lbu .. | .lw .. | .sb .. | .sw .. | .lwc1 .. => false
  | .swc1 .. | .movn .. | .movz .. | .sll .. | .sllv .. | .sra .. | .srav .. => false
  | .srl .. | .srlv .. | .syscall _ => false

/-- "The CP1 instructions are ADD.S, SUB.S, MUL.S, DIV.S, MOV.S, NEG.S, MFC1, MTC1, LWC1 and SWC1"
(10_state.md R26): those that raise CoprocessorUnusable when CP1_USABLE is false
(60_exceptions.md R229). -/
def Instr.isCp1 : Instr → Bool
  | .addS .. | .subS .. | .mulS .. | .divS .. | .movS .. | .negS .. => true
  | .mfc1 .. | .mtc1 .. | .lwc1 .. | .swc1 .. => true
  | .add .. | .addi .. | .addiu .. | .addu .. | .sub .. | .subu .. | .slt .. | .slti .. => false
  | .sltiu .. | .sltu .. | .and .. | .andi .. | .or .. | .ori .. | .xor .. | .xori .. => false
  | .nor .. | .lui .. | .beq .. | .bne .. | .bgez .. | .bgtz .. | .blez .. | .bltz .. => false
  | .j _ | .jal _ | .jalr .. | .jr _ | .mult .. | .multu .. | .mul .. | .div .. => false
  | .divu .. | .mfhi _ | .mflo _ | .lb .. | .lbu .. | .lw .. | .sb .. | .sw .. => false
  | .movn .. | .movz .. | .sll .. | .sllv .. | .sra .. | .srav .. | .srl .. | .srlv .. => false
  | .syscall _ => false

end Sys2Proof
end

