-- ==== Sys2Proof/WellFormed.lean ====
section
/-! DEFINITION. The one restriction the source places on an instruction's own operands, and the one the spec
places on a launch. Field widths are held by the types of Syntax.lean, so they need no check here. -/

namespace Sys2Proof

/-- "Register specifiers rs and rd must not be equal" (JALR, 43_branch_jump.md R162, 70_reset_and_hazards.md
R265). Every other instruction accepts every field value (30_encoding.md R78). An ill-formed JALR still
decodes (95_test_vectors.md V256); executing it is a fault (R162). -/
def Instr.wellFormed : Instr → Bool
  | .jalr rd rs => rd != rs
  | .add .. | .addi .. | .addiu .. | .addu .. | .sub .. | .subu .. | .slt .. | .slti .. => true
  | .sltiu .. | .sltu .. | .addS .. | .subS .. | .mulS .. | .divS .. | .movS .. | .negS .. => true
  | .mfc1 .. | .mtc1 .. | .and .. | .andi .. | .or .. | .ori .. | .xor .. | .xori .. => true
  | .nor .. | .lui .. | .beq .. | .bne .. | .bgez .. | .bgtz .. | .blez .. | .bltz .. => true
  | .j _ | .jal _ | .jr _ | .mult .. | .multu .. | .mul .. | .div .. | .divu .. => true
  | .mfhi _ | .mflo _ | .lb .. | .lbu .. | .lw .. | .sb .. | .sw .. | .lwc1 .. => true
  | .swc1 .. | .movn .. | .movz .. | .sll .. | .sllv .. | .sra .. | .srav .. => true
  | .srl .. | .srlv .. | .syscall _ => true

/-- "ENTRY_PC must be a multiple of 4" (70_reset_and_hazards.md R261); a launch with another value is refused
before the run (93_implementation_defined.md U25). -/
def Params.wellFormed (p : Params) : Bool := p.entryPc.extractLsb' 0 2 == 0#2

end Sys2Proof
end

