-- ==== Sys2Proof/Decode.lean ====
section
/-! DEFINITION. The decoder, total on every word and every list of bytes, and after it the encoder, both
written from 30_encoding.md (R60 to R80). The encodings are the MIPS32 ones, which the spec adopts from
general knowledge (R61, log entry 18). -/

namespace Sys2Proof

/-! ## Fields of a word (30_encoding.md R61 to R66) -/

/-- `opcode = w[31:26]` (R61). -/
def opcodeOf (w : Word) : BitVec 6 := w.extractLsb' 26 6

/-- `w[25:21]`: rs, base, or the selector `fmt` or `sub` of COP1 (R62, R63, R65, R66). -/
def rsOf (w : Word) : Reg := w.extractLsb' 21 5

/-- `w[20:16]`: rt, ft, or the selector of REGIMM (R62, R63, R65, R72). -/
def rtOf (w : Word) : Reg := w.extractLsb' 16 5

/-- `w[15:11]`: rd, or fs of the FR and FM formats (R62, R65, R66). -/
def rdOf (w : Word) : Reg := w.extractLsb' 11 5

/-- `w[10:6]`: sa, or fd of the FR format (R62, R65). -/
def saOf (w : Word) : BitVec 5 := w.extractLsb' 6 5

/-- `funct = w[5:0]` (R62, R65). -/
def functOf (w : Word) : BitVec 6 := w.extractLsb' 0 6

/-- `w[15:0]`: immediate or offset (R63). -/
def immOf (w : Word) : Imm := w.extractLsb' 0 16

/-- `instr_index = w[25:0]` (R64). -/
def indexOf (w : Word) : BitVec 26 := w.extractLsb' 0 26

/-- `code = w[25:6]` of SYSCALL (R62, R68). -/
def codeOf (w : Word) : BitVec 20 := w.extractLsb' 6 20

/-! ## Decode (30_encoding.md R69 to R76) -/

/-- Why bytes are no instruction. Each is a reserved encoding (R76), but `truncated`, which no fetch of a
whole word meets. -/
inductive DecodeError where
  /-- The primary opcode is not in the table of R69. -/
  | reservedOpcode
  /-- SPECIAL with a funct not in the table of R71. -/
  | reservedSpecial
  /-- REGIMM with a selector other than 00000 and 00001 (R72). -/
  | reservedRegimm
  /-- SPECIAL2 with a funct other than 000010 (R73). -/
  | reservedSpecial2
  /-- COP1 with a selector, or a funct under 10000, that R74 does not list. -/
  | reservedCop1
  /-- A must-be-zero field is not zero (R75). -/
  | mustBeZero
  /-- Fewer than four bytes: an instruction is one word (R60). -/
  | truncated
deriving DecidableEq, Repr

/-- "a word with a non-zero value there does not decode as that instruction" (R75). -/
def whenZero (zero : Bool) (i : Instr) : Except DecodeError Instr :=
  if zero then .ok i else .error .mustBeZero

/-- SPECIAL, opcode 000000, selected by funct (R71). -/
def decodeSpecial (w : Word) : Except DecodeError Instr :=
  let rs := rsOf w
  let rt := rtOf w
  let rd := rdOf w
  let sa := saOf w
  let fn := functOf w
  if fn = 0b000000#6 then whenZero (rs == 0) (.sll rd rt sa)
  else if fn = 0b000010#6 then whenZero (rs == 0) (.srl rd rt sa)
  else if fn = 0b000011#6 then whenZero (rs == 0) (.sra rd rt sa)
  else if fn = 0b000100#6 then whenZero (sa == 0) (.sllv rd rt rs)
  else if fn = 0b000110#6 then whenZero (sa == 0) (.srlv rd rt rs)
  else if fn = 0b000111#6 then whenZero (sa == 0) (.srav rd rt rs)
  else if fn = 0b001000#6 then whenZero (rt == 0 && rd == 0 && sa == 0) (.jr rs)
  else if fn = 0b001001#6 then whenZero (rt == 0 && sa == 0) (.jalr rd rs)
  else if fn = 0b001010#6 then whenZero (sa == 0) (.movz rd rs rt)
  else if fn = 0b001011#6 then whenZero (sa == 0) (.movn rd rs rt)
  else if fn = 0b001100#6 then .ok (.syscall (codeOf w))
  else if fn = 0b010000#6 then whenZero (rs == 0 && rt == 0 && sa == 0) (.mfhi rd)
  else if fn = 0b010010#6 then whenZero (rs == 0 && rt == 0 && sa == 0) (.mflo rd)
  else if fn = 0b011000#6 then whenZero (rd == 0 && sa == 0) (.mult rs rt)
  else if fn = 0b011001#6 then whenZero (rd == 0 && sa == 0) (.multu rs rt)
  else if fn = 0b011010#6 then whenZero (rd == 0 && sa == 0) (.div rs rt)
  else if fn = 0b011011#6 then whenZero (rd == 0 && sa == 0) (.divu rs rt)
  else if fn = 0b100000#6 then whenZero (sa == 0) (.add rd rs rt)
  else if fn = 0b100001#6 then whenZero (sa == 0) (.addu rd rs rt)
  else if fn = 0b100010#6 then whenZero (sa == 0) (.sub rd rs rt)
  else if fn = 0b100011#6 then whenZero (sa == 0) (.subu rd rs rt)
  else if fn = 0b100100#6 then whenZero (sa == 0) (.and rd rs rt)
  else if fn = 0b100101#6 then whenZero (sa == 0) (.or rd rs rt)
  else if fn = 0b100110#6 then whenZero (sa == 0) (.xor rd rs rt)
  else if fn = 0b100111#6 then whenZero (sa == 0) (.nor rd rs rt)
  else if fn = 0b101010#6 then whenZero (sa == 0) (.slt rd rs rt)
  else if fn = 0b101011#6 then whenZero (sa == 0) (.sltu rd rs rt)
  else .error .reservedSpecial

/-- REGIMM, opcode 000001, selected by `w[20:16]` (R72). -/
def decodeRegimm (w : Word) : Except DecodeError Instr :=
  if rtOf w = 0b00000#5 then .ok (.bltz (rsOf w) (immOf w))
  else if rtOf w = 0b00001#5 then .ok (.bgez (rsOf w) (immOf w))
  else .error .reservedRegimm

/-- SPECIAL2, opcode 011100, selected by funct (R73). -/
def decodeSpecial2 (w : Word) : Except DecodeError Instr :=
  if functOf w = 0b000010#6 then whenZero (saOf w == 0) (.mul (rdOf w) (rsOf w) (rtOf w))
  else .error .reservedSpecial2

/-- Format S arithmetic, COP1 with `fmt = 10000`, selected by funct (R65, R74). -/
def decodeFormatS (w : Word) : Except DecodeError Instr :=
  let ft := rtOf w
  let fs := rdOf w
  let fd := saOf w
  let fn := functOf w
  if fn = 0b000000#6 then .ok (.addS fd fs ft)
  else if fn = 0b000001#6 then .ok (.subS fd fs ft)
  else if fn = 0b000010#6 then .ok (.mulS fd fs ft)
  else if fn = 0b000011#6 then .ok (.divS fd fs ft)
  else if fn = 0b000110#6 then whenZero (ft == 0) (.movS fd fs)
  else if fn = 0b000111#6 then whenZero (ft == 0) (.negS fd fs)
  else .error .reservedCop1

/-- COP1, opcode 010001, selected by `w[25:21]` (R74). -/
def decodeCop1 (w : Word) : Except DecodeError Instr :=
  if rsOf w = 0b00000#5 then
    whenZero (saOf w == 0 && functOf w == 0) (.mfc1 (rtOf w) (rdOf w))
  else if rsOf w = 0b00100#5 then
    whenZero (saOf w == 0 && functOf w == 0) (.mtc1 (rtOf w) (rdOf w))
  else if rsOf w = 0b10000#5 then decodeFormatS w
  else .error .reservedCop1

/-- `Decode(w)`: the instruction of a 32-bit word, or why there is none (R69, R70). -/
def decode (w : Word) : Except DecodeError Instr :=
  let op := opcodeOf w
  let rs := rsOf w
  let rt := rtOf w
  let imm := immOf w
  if op = 0b000000#6 then decodeSpecial w
  else if op = 0b000001#6 then decodeRegimm w
  else if op = 0b000010#6 then .ok (.j (indexOf w))
  else if op = 0b000011#6 then .ok (.jal (indexOf w))
  else if op = 0b000100#6 then .ok (.beq rs rt imm)
  else if op = 0b000101#6 then .ok (.bne rs rt imm)
  else if op = 0b000110#6 then whenZero (rt == 0) (.blez rs imm)
  else if op = 0b000111#6 then whenZero (rt == 0) (.bgtz rs imm)
  else if op = 0b001000#6 then .ok (.addi rt rs imm)
  else if op = 0b001001#6 then .ok (.addiu rt rs imm)
  else if op = 0b001010#6 then .ok (.slti rt rs imm)
  else if op = 0b001011#6 then .ok (.sltiu rt rs imm)
  else if op = 0b001100#6 then .ok (.andi rt rs imm)
  else if op = 0b001101#6 then .ok (.ori rt rs imm)
  else if op = 0b001110#6 then .ok (.xori rt rs imm)
  else if op = 0b001111#6 then whenZero (rs == 0) (.lui rt imm)
  else if op = 0b010001#6 then decodeCop1 w
  else if op = 0b011100#6 then decodeSpecial2 w
  else if op = 0b100000#6 then .ok (.lb rt imm rs)
  else if op = 0b100011#6 then .ok (.lw rt imm rs)
  else if op = 0b100100#6 then .ok (.lbu rt imm rs)
  else if op = 0b101000#6 then .ok (.sb rt imm rs)
  else if op = 0b101011#6 then .ok (.sw rt imm rs)
  else if op = 0b110001#6 then .ok (.lwc1 rt imm rs)
  else if op = 0b111001#6 then .ok (.swc1 rt imm rs)
  else .error .reservedOpcode

/-! ## Byte order (20_memory.md R43) -/

/-- The word at an aligned address `A`, from the bytes `M[A]`, `M[A+1]`, `M[A+2]`, `M[A+3]` (R43). -/
def assembleWord (e : Endian) (b0 b1 b2 b3 : Byte) : Word :=
  match e with
  | .big => b0 ++ b1 ++ b2 ++ b3
  | .little => b3 ++ b2 ++ b1 ++ b0

/-- The byte of the word `v` that lies at the word's address plus `k` (R43, R50). -/
def wordByte (e : Endian) (v : Word) (k : Fin 4) : Byte :=
  match e with
  | .big => v.extractLsb' (8 * (3 - k.val)) 8
  | .little => v.extractLsb' (8 * k.val) 8

/-- The bytes of a word at ascending addresses. -/
def wordBytes (e : Endian) (v : Word) : List Byte :=
  [wordByte e v 0, wordByte e v 1, wordByte e v 2, wordByte e v 3]

/-- The instruction at the head of a list of bytes, and the bytes after it: one word, in the byte order of
data (R60, 20_memory.md R51). -/
def decodeBytes (e : Endian) : List Byte → Except DecodeError (Instr × List Byte)
  | b0 :: b1 :: b2 :: b3 :: rest =>
    match decode (assembleWord e b0 b1 b2 b3) with
    | .ok i => .ok (i, rest)
    | .error r => .error r
  | [] | [_] | [_, _] | [_, _, _] => .error .truncated

/-! ## Encode (30_encoding.md R62 to R66, R80) -/

/-- The R format (R62); with `fmt, ft, fs, fd` for `rs, rt, rd, sa` it is the FR format (R65). -/
def encR (op : BitVec 6) (rs rt rd sa : BitVec 5) (fn : BitVec 6) : Word :=
  op ++ rs ++ rt ++ rd ++ sa ++ fn

/-- The I format (R63). -/
def encI (op : BitVec 6) (rs rt : BitVec 5) (imm : Imm) : Word :=
  op ++ rs ++ rt ++ imm

/-- The J format (R64). -/
def encJ (op : BitVec 6) (index : BitVec 26) : Word :=
  op ++ index

/-- The word of an instruction (R80), one pattern for each. -/
def encode : Instr → Word
  | .add rd rs rt => encR 0b000000#6 rs rt rd 0#5 0b100000#6
  | .addi rt rs imm => encI 0b001000#6 rs rt imm
  | .addiu rt rs imm => encI 0b001001#6 rs rt imm
  | .addu rd rs rt => encR 0b000000#6 rs rt rd 0#5 0b100001#6
  | .sub rd rs rt => encR 0b000000#6 rs rt rd 0#5 0b100010#6
  | .subu rd rs rt => encR 0b000000#6 rs rt rd 0#5 0b100011#6
  | .slt rd rs rt => encR 0b000000#6 rs rt rd 0#5 0b101010#6
  | .slti rt rs imm => encI 0b001010#6 rs rt imm
  | .sltiu rt rs imm => encI 0b001011#6 rs rt imm
  | .sltu rd rs rt => encR 0b000000#6 rs rt rd 0#5 0b101011#6
  | .addS fd fs ft => encR 0b010001#6 0b10000#5 ft fs fd 0b000000#6
  | .subS fd fs ft => encR 0b010001#6 0b10000#5 ft fs fd 0b000001#6
  | .mulS fd fs ft => encR 0b010001#6 0b10000#5 ft fs fd 0b000010#6
  | .divS fd fs ft => encR 0b010001#6 0b10000#5 ft fs fd 0b000011#6
  | .movS fd fs => encR 0b010001#6 0b10000#5 0#5 fs fd 0b000110#6
  | .negS fd fs => encR 0b010001#6 0b10000#5 0#5 fs fd 0b000111#6
  | .mfc1 rt fs => encR 0b010001#6 0b00000#5 rt fs 0#5 0#6
  | .mtc1 rt fs => encR 0b010001#6 0b00100#5 rt fs 0#5 0#6
  | .and rd rs rt => encR 0b000000#6 rs rt rd 0#5 0b100100#6
  | .andi rt rs imm => encI 0b001100#6 rs rt imm
  | .or rd rs rt => encR 0b000000#6 rs rt rd 0#5 0b100101#6
  | .ori rt rs imm => encI 0b001101#6 rs rt imm
  | .xor rd rs rt => encR 0b000000#6 rs rt rd 0#5 0b100110#6
  | .xori rt rs imm => encI 0b001110#6 rs rt imm
  | .nor rd rs rt => encR 0b000000#6 rs rt rd 0#5 0b100111#6
  | .lui rt imm => encI 0b001111#6 0#5 rt imm
  | .beq rs rt offset => encI 0b000100#6 rs rt offset
  | .bne rs rt offset => encI 0b000101#6 rs rt offset
  | .bgez rs offset => encI 0b000001#6 rs 0b00001#5 offset
  | .bgtz rs offset => encI 0b000111#6 rs 0b00000#5 offset
  | .blez rs offset => encI 0b000110#6 rs 0b00000#5 offset
  | .bltz rs offset => encI 0b000001#6 rs 0b00000#5 offset
  | .j index => encJ 0b000010#6 index
  | .jal index => encJ 0b000011#6 index
  | .jalr rd rs => encR 0b000000#6 rs 0#5 rd 0#5 0b001001#6
  | .jr rs => encR 0b000000#6 rs 0#5 0#5 0#5 0b001000#6
  | .mult rs rt => encR 0b000000#6 rs rt 0#5 0#5 0b011000#6
  | .multu rs rt => encR 0b000000#6 rs rt 0#5 0#5 0b011001#6
  | .mul rd rs rt => encR 0b011100#6 rs rt rd 0#5 0b000010#6
  | .div rs rt => encR 0b000000#6 rs rt 0#5 0#5 0b011010#6
  | .divu rs rt => encR 0b000000#6 rs rt 0#5 0#5 0b011011#6
  | .mfhi rd => encR 0b000000#6 0#5 0#5 rd 0#5 0b010000#6
  | .mflo rd => encR 0b000000#6 0#5 0#5 rd 0#5 0b010010#6
  | .lb rt offset base => encI 0b100000#6 base rt offset
  | .lbu rt offset base => encI 0b100100#6 base rt offset
  | .lw rt offset base => encI 0b100011#6 base rt offset
  | .sb rt offset base => encI 0b101000#6 base rt offset
  | .sw rt offset base => encI 0b101011#6 base rt offset
  | .lwc1 ft offset base => encI 0b110001#6 base ft offset
  | .swc1 ft offset base => encI 0b111001#6 base ft offset
  | .movn rd rs rt => encR 0b000000#6 rs rt rd 0#5 0b001011#6
  | .movz rd rs rt => encR 0b000000#6 rs rt rd 0#5 0b001010#6
  | .sll rd rt sa => encR 0b000000#6 0#5 rt rd sa 0b000000#6
  | .sllv rd rt rs => encR 0b000000#6 rs rt rd 0#5 0b000100#6
  | .sra rd rt sa => encR 0b000000#6 0#5 rt rd sa 0b000011#6
  | .srav rd rt rs => encR 0b000000#6 rs rt rd 0#5 0b000111#6
  | .srl rd rt sa => encR 0b000000#6 0#5 rt rd sa 0b000010#6
  | .srlv rd rt rs => encR 0b000000#6 rs rt rd 0#5 0b000110#6
  | .syscall code => (0b000000#6 ++ code ++ 0b001100#6 : BitVec (6 + 20 + 6))

/-! ## The opcode table (30_encoding.md R70, R80) -/

/-- A row of spec/opcode_table.json: a word is this instruction when `(w AND mask) = pattern` (R70). -/
structure OpcodeRow where
  mnemonic : String
  mask : Word
  pattern : Word
deriving DecidableEq, Repr

/-- The rows of 40_integer_arithmetic.md. -/
def opcodeRowsInteger : List OpcodeRow :=
  [⟨"ADD", 0xFC0007FF#32, 0x00000020#32⟩,
   ⟨"ADDI", 0xFC000000#32, 0x20000000#32⟩,
   ⟨"ADDIU", 0xFC000000#32, 0x24000000#32⟩,
   ⟨"ADDU", 0xFC0007FF#32, 0x00000021#32⟩,
   ⟨"SUB", 0xFC0007FF#32, 0x00000022#32⟩,
   ⟨"SUBU", 0xFC0007FF#32, 0x00000023#32⟩,
   ⟨"SLT", 0xFC0007FF#32, 0x0000002A#32⟩,
   ⟨"SLTI", 0xFC000000#32, 0x28000000#32⟩,
   ⟨"SLTIU", 0xFC000000#32, 0x2C000000#32⟩,
   ⟨"SLTU", 0xFC0007FF#32, 0x0000002B#32⟩]

/-- The rows of 41_floating_point.md. -/
def opcodeRowsFloat : List OpcodeRow :=
  [⟨"ADD.S", 0xFFE0003F#32, 0x46000000#32⟩,
   ⟨"SUB.S", 0xFFE0003F#32, 0x46000001#32⟩,
   ⟨"MUL.S", 0xFFE0003F#32, 0x46000002#32⟩,
   ⟨"DIV.S", 0xFFE0003F#32, 0x46000003#32⟩,
   ⟨"MOV.S", 0xFFFF003F#32, 0x46000006#32⟩,
   ⟨"NEG.S", 0xFFFF003F#32, 0x46000007#32⟩,
   ⟨"MFC1", 0xFFE007FF#32, 0x44000000#32⟩,
   ⟨"MTC1", 0xFFE007FF#32, 0x44800000#32⟩]

/-- The rows of 42_logical.md. -/
def opcodeRowsLogical : List OpcodeRow :=
  [⟨"AND", 0xFC0007FF#32, 0x00000024#32⟩,
   ⟨"ANDI", 0xFC000000#32, 0x30000000#32⟩,
   ⟨"OR", 0xFC0007FF#32, 0x00000025#32⟩,
   ⟨"ORI", 0xFC000000#32, 0x34000000#32⟩,
   ⟨"XOR", 0xFC0007FF#32, 0x00000026#32⟩,
   ⟨"XORI", 0xFC000000#32, 0x38000000#32⟩,
   ⟨"NOR", 0xFC0007FF#32, 0x00000027#32⟩,
   ⟨"LUI", 0xFFE00000#32, 0x3C000000#32⟩]

/-- The rows of 43_branch_jump.md. -/
def opcodeRowsBranch : List OpcodeRow :=
  [⟨"BEQ", 0xFC000000#32, 0x10000000#32⟩,
   ⟨"BNE", 0xFC000000#32, 0x14000000#32⟩,
   ⟨"BGEZ", 0xFC1F0000#32, 0x04010000#32⟩,
   ⟨"BGTZ", 0xFC1F0000#32, 0x1C000000#32⟩,
   ⟨"BLEZ", 0xFC1F0000#32, 0x18000000#32⟩,
   ⟨"BLTZ", 0xFC1F0000#32, 0x04000000#32⟩,
   ⟨"J", 0xFC000000#32, 0x08000000#32⟩,
   ⟨"JAL", 0xFC000000#32, 0x0C000000#32⟩,
   ⟨"JALR", 0xFC1F07FF#32, 0x00000009#32⟩,
   ⟨"JR", 0xFC1FFFFF#32, 0x00000008#32⟩]

/-- The rows of 44_multiply_divide.md. -/
def opcodeRowsMulDiv : List OpcodeRow :=
  [⟨"MULT", 0xFC00FFFF#32, 0x00000018#32⟩,
   ⟨"MULTU", 0xFC00FFFF#32, 0x00000019#32⟩,
   ⟨"MUL", 0xFC0007FF#32, 0x70000002#32⟩,
   ⟨"DIV", 0xFC00FFFF#32, 0x0000001A#32⟩,
   ⟨"DIVU", 0xFC00FFFF#32, 0x0000001B#32⟩,
   ⟨"MFHI", 0xFFFF07FF#32, 0x00000010#32⟩,
   ⟨"MFLO", 0xFFFF07FF#32, 0x00000012#32⟩]

/-- The rows of 46_load_store.md. -/
def opcodeRowsLoadStore : List OpcodeRow :=
  [⟨"LB", 0xFC000000#32, 0x80000000#32⟩,
   ⟨"LBU", 0xFC000000#32, 0x90000000#32⟩,
   ⟨"LW", 0xFC000000#32, 0x8C000000#32⟩,
   ⟨"SB", 0xFC000000#32, 0xA0000000#32⟩,
   ⟨"SW", 0xFC000000#32, 0xAC000000#32⟩,
   ⟨"LWC1", 0xFC000000#32, 0xC4000000#32⟩,
   ⟨"SWC1", 0xFC000000#32, 0xE4000000#32⟩]

/-- The rows of 47_conditional_move.md. -/
def opcodeRowsMove : List OpcodeRow :=
  [⟨"MOVN", 0xFC0007FF#32, 0x0000000B#32⟩,
   ⟨"MOVZ", 0xFC0007FF#32, 0x0000000A#32⟩]

/-- The rows of 48_shift.md. -/
def opcodeRowsShift : List OpcodeRow :=
  [⟨"SLL", 0xFFE0003F#32, 0x00000000#32⟩,
   ⟨"SLLV", 0xFC0007FF#32, 0x00000004#32⟩,
   ⟨"SRA", 0xFFE0003F#32, 0x00000003#32⟩,
   ⟨"SRAV", 0xFC0007FF#32, 0x00000007#32⟩,
   ⟨"SRL", 0xFFE0003F#32, 0x00000002#32⟩,
   ⟨"SRLV", 0xFC0007FF#32, 0x00000006#32⟩]

/-- The rows of 49_system.md. -/
def opcodeRowsSystem : List OpcodeRow :=
  [⟨"SYSCALL", 0xFC00003F#32, 0x0000000C#32⟩]

/-- Every row of spec/opcode_table.json (30_encoding.md R80). -/
def opcodeTable : List OpcodeRow :=
  opcodeRowsInteger ++ opcodeRowsFloat ++ opcodeRowsLogical ++ opcodeRowsBranch ++
    opcodeRowsMulDiv ++ opcodeRowsLoadStore ++ opcodeRowsMove ++ opcodeRowsShift ++ opcodeRowsSystem

/-- The mnemonic of an instruction's row, letter for letter (00_scope.md R18). -/
def Instr.mnemonic : Instr → String
  | .add .. => "ADD"
  | .addi .. => "ADDI"
  | .addiu .. => "ADDIU"
  | .addu .. => "ADDU"
  | .sub .. => "SUB"
  | .subu .. => "SUBU"
  | .slt .. => "SLT"
  | .slti .. => "SLTI"
  | .sltiu .. => "SLTIU"
  | .sltu .. => "SLTU"
  | .addS .. => "ADD.S"
  | .subS .. => "SUB.S"
  | .mulS .. => "MUL.S"
  | .divS .. => "DIV.S"
  | .movS .. => "MOV.S"
  | .negS .. => "NEG.S"
  | .mfc1 .. => "MFC1"
  | .mtc1 .. => "MTC1"
  | .and .. => "AND"
  | .andi .. => "ANDI"
  | .or .. => "OR"
  | .ori .. => "ORI"
  | .xor .. => "XOR"
  | .xori .. => "XORI"
  | .nor .. => "NOR"
  | .lui .. => "LUI"
  | .beq .. => "BEQ"
  | .bne .. => "BNE"
  | .bgez .. => "BGEZ"
  | .bgtz .. => "BGTZ"
  | .blez .. => "BLEZ"
  | .bltz .. => "BLTZ"
  | .j .. => "J"
  | .jal .. => "JAL"
  | .jalr .. => "JALR"
  | .jr .. => "JR"
  | .mult .. => "MULT"
  | .multu .. => "MULTU"
  | .mul .. => "MUL"
  | .div .. => "DIV"
  | .divu .. => "DIVU"
  | .mfhi .. => "MFHI"
  | .mflo .. => "MFLO"
  | .lb .. => "LB"
  | .lbu .. => "LBU"
  | .lw .. => "LW"
  | .sb .. => "SB"
  | .sw .. => "SW"
  | .lwc1 .. => "LWC1"
  | .swc1 .. => "SWC1"
  | .movn .. => "MOVN"
  | .movz .. => "MOVZ"
  | .sll .. => "SLL"
  | .sllv .. => "SLLV"
  | .sra .. => "SRA"
  | .srav .. => "SRAV"
  | .srl .. => "SRL"
  | .srlv .. => "SRLV"
  | .syscall .. => "SYSCALL"

/-! ## One row of the table as a word -/

/-- The word that an instruction of `nbits` bits given as the number `w` stands for: bit 0 is its least
significant bit, and every bit above `nbits` is 0 (one word, R60). -/
def tableWord (nbits w : Nat) : Word := BitVec.ofNat 32 (w % 2 ^ nbits)

/-- The instruction the decoder reads from that word, laid out in memory as the hardware stores it (in the
big order here; R43 gives both, and the word read back is the same). -/
def decodeTableWord (nbits w : Nat) : Option Instr :=
  match decodeBytes .big (wordBytes .big (tableWord nbits w)) with
  | .ok (i, _) => some i
  | .error _ => none

end Sys2Proof
end

