-- ==== Sys2Proof/Machine/Operands.lean ====
section
/-! DEFINITION. How each instruction turns its fields into operands (30_encoding.md R68), addresses and
shift results. -/

namespace Sys2Proof.Machine

/-- `sext_32` of a 16-bit field: ADDI, ADDIU, SLTI, SLTIU and every load and store offset (R68). -/
def sextImm (imm : Imm) : Word := imm.signExtend 32

/-- `zext_32` of a 16-bit field: ANDI, ORI, XORI (R68, 42_logical.md R140). -/
def zextImm (imm : Imm) : Word := imm.zeroExtend 32

/-- `imm || 0^16`: LUI (R68, 42_logical.md R148). -/
def upperImm (imm : Imm) : Word := imm ++ 0#16

/-- `(pc + 4) + sext_32(offset || 00)`, modulo 2^32 (43_branch_jump.md R151). -/
def branchTarget (pc : Word) (offset : Imm) : Word :=
  pc + 4#32 + (offset ++ 0#2).signExtend 32

/-- `(pc + 4)[31:28] || instr_index || 00` (43_branch_jump.md R160). -/
def jumpTarget (pc : Word) (index : BitVec 26) : Word :=
  ((pc + 4#32).extractLsb' 28 4 ++ index ++ 0#2 : BitVec (4 + 26 + 2))

/-- The return link, `pc + 8` (43_branch_jump.md R161, R162). -/
def returnLink (pc : Word) : Word := pc + 8#32

/-- `EA = x[base] + sext_32(offset)`, modulo 2^32, from the base register's contents (20_memory.md R45). -/
def effectiveAddress (base : Word) (offset : Imm) : Word := base + sextImm offset

/-- `EA[1:0] = 0` (20_memory.md R46, R48). -/
def wordAligned (a : Word) : Bool := a.extractLsb' 0 2 == 0#2

/-- The variable shift amount, `x[rs][4:0]` (48_shift.md R205). -/
def shiftAmount (v : Word) : BitVec 5 := v.extractLsb' 0 5

/-- `shl(v, s) = (v * 2^s) mod 2^32` (48_shift.md R205). -/
def shl (v : Word) (s : BitVec 5) : Word := v <<< s.toNat

/-- `shrl(v, s) = floor(u(v) / 2^s)` (48_shift.md R205). -/
def shrl (v : Word) (s : BitVec 5) : Word := v >>> s.toNat

/-- `shra(v, s) = floor(s(v) / 2^s) mod 2^32` (48_shift.md R205). -/
def shra (v : Word) (s : BitVec 5) : Word := v.sshiftRight s.toNat

/-- The word a comparison writes: "the 32-bit value 1 or 0" (40_integer_arithmetic.md R100). -/
def boolWord (b : Bool) : Word := if b then 1#32 else 0#32

/-- `t[31:0]` of an exact integer (40_integer_arithmetic.md R101). -/
def lowWord (t : Int) : Word := BitVec.ofInt 32 t

/-- `p[63:32]` of an exact product "as a 64-bit two's complement value" (44_multiply_divide.md R171). -/
def highWord (p : Int) : Word := (BitVec.ofInt 64 p).extractLsb' 32 32

/-- `x[rt][7:0]` (46_load_store.md R190). -/
def lowByte (v : Word) : Byte := v.extractLsb' 0 8

/-- `sext_32(b)` of a byte (46_load_store.md R187). -/
def sextByte (b : Byte) : Word := b.signExtend 32

/-- `zext_32(b)` of a byte (46_load_store.md R188). -/
def zextByte (b : Byte) : Word := b.zeroExtend 32

end Sys2Proof.Machine
end

