-- ==== Sys2Proof/Machine/Ops.lean ====
section
/-! DEFINITION. The named operations over registers, memory and control flow that the meanings share, and
taking an exception. There is no return from an exception to model: "there is no handler execution, no
return, no nesting" (60_exceptions.md R241). -/

namespace Sys2Proof.Machine

/-- The three outcomes of a step of this machine. -/
abbrev Result := Host.Outcome State Fault Refusal

/-! ## Registers -/

/-- What GPR `r` holds: "GPR 0 always reads as the 32-bit value 0" (10_state.md R21) and "is never unspecified"
(R35). -/
def State.gprAt (s : State) (r : Reg) : Contents :=
  if r = 0#5 then .holds 0#32 else s.gpr[r.toNat]'r.isLt

/-- What FPR `r` holds (10_state.md R29). -/
def State.fprAt (s : State) (r : FReg) : Contents := s.fpr[r.toNat]'r.isLt

/-- The word a read of this operand gets: the value, or, where the register holds none, a free draw, a fresh one for
every read ("a free draw on every read ... Two reads of one unspecified register need not agree", 10_state.md
R35; log entries 7 and 11). -/
def State.value (s : State) (k : Operand) : Contents → Word
  | .holds v => v
  | .unspecified => Config.freeWord s.draws k
  | .someNaN => nanOfDraw (Config.freeNaN s.draws k)

/-- `x[r]`, read as the operand `k` (10_state.md R21, R35). -/
def State.x (s : State) (k : Operand) (r : Reg) : Word := s.value k (s.gprAt r)

/-- `f[r]`, read as the operand `k` (10_state.md R29, R35). -/
def State.f (s : State) (k : Operand) (r : FReg) : Word := s.value k (s.fprAt r)

/-- GPR `r` holds `c` from now on: a write to GPR 0 "is discarded" (10_state.md R21). -/
def State.setGpr (s : State) (r : Reg) (c : Contents) : State :=
  if r = 0#5 then s else { s with gpr := s.gpr.set r.toNat c r.isLt }

/-- FPR `r` holds `c` from now on (10_state.md R29). -/
def State.setFpr (s : State) (r : FReg) (c : Contents) : State :=
  { s with fpr := s.fpr.set r.toNat c r.isLt }

/-- `x[r] <- v`: "Writing it makes it specified again" (10_state.md R21, R35). -/
def State.setX (s : State) (r : Reg) (v : Word) : State := s.setGpr r (.holds v)

/-- `f[r] <- v` (10_state.md R29, R35). -/
def State.setF (s : State) (r : FReg) (v : Word) : State := s.setFpr r (.holds v)

/-- `HI <- hi; LO <- lo` (10_state.md R23). -/
def State.setHiLo (s : State) (hi lo : SpecialReg) : State :=
  { s with hi := hi, lo := lo }

/-- `HI <- UNSPEC_32; LO <- UNSPEC_32` (44_multiply_divide.md R173, R175, R176): both hold no known value until
they are written again (10_state.md R35). -/
def State.unspecifyHiLo (s : State) : State := s.setHiLo .unspecified .unspecified

/-- What a copy of HI or LO to a GPR leaves there: an unspecified one leaves the GPR unspecified ("under the draw
treatment `x[3]` becomes unspecified", 95_test_vectors.md V111; log entry 25). -/
def SpecialReg.contents : SpecialReg → Contents
  | .holds v => .holds v
  | .unspecified => .unspecified

/-- What a load leaves in its destination, from the byte or word it read: "a load of [an unspecified byte] yields an
unspecified register" (93_implementation_defined.md U18; log entry 8). -/
def loaded {α : Type} (extend : α → Word) : Option α → Contents
  | some v => .holds (extend v)
  | none => .unspecified

/-! ## Control flow (10_state.md R26 step 7, R27). A completed instruction has used its draws. -/

/-- `(pc, npc, ds) <- (npc, npc + 4, false)`, the sequential advance (00_scope.md R15). -/
def State.advance (s : State) : State :=
  { s with pc := s.npc, npc := s.npc + 4#32, ds := false, draws := s.draws + 1 }

/-- `branch_to(T)`: `(pc, npc, ds) <- (npc, T, true)` (10_state.md R27). -/
def State.branchTo (s : State) (target : Word) : State :=
  { s with pc := s.npc, npc := target, ds := true, draws := s.draws + 1 }

/-- `no_branch()`: `(pc, npc, ds) <- (npc, npc + 4, true)` (10_state.md R27). -/
def State.noBranch (s : State) : State :=
  { s with pc := s.npc, npc := s.npc + 4#32, ds := true, draws := s.draws + 1 }

/-! ## Taking an exception (60_exceptions.md R222, R238) -/

/-- An exception whose record has the common fields only. -/
def plainCause (name : ExceptionName) : Cause where
  name := name
  kind := none
  badaddr := none
  cop := none

/-- An exception of an access: its record "carries the kind (load, store, fetch) and the offending address"
(60_exceptions.md R225 to R227, R230). -/
def accessCause (name : ExceptionName) (kind : AccessKind) (addr : Word) : Cause where
  name := name
  kind := some kind
  badaddr := some addr
  cop := none

/-- `CoprocessorUnusable(1)`: "The record carries the coprocessor number 1" (60_exceptions.md R229). -/
def coprocessorUnusable : Cause where
  name := .coprocessorUnusable
  kind := none
  badaddr := none
  cop := some 1

/-- "pc if not ds, pc - 4 if ds -- the branch" (60_exceptions.md R238, 43_branch_jump.md R165). -/
def restartAddress (s : State) : Word := if s.ds then s.pc - 4#32 else s.pc

/-- The exception record of R238, from the state at the start of the raising step and the fetched word. -/
def exceptionRecord (s : State) (word : Option Word) (c : Cause) : ExceptionRecord where
  name := c.name
  pc := s.pc
  ds := s.ds
  restart := restartAddress s
  word := word
  kind := c.kind
  badaddr := c.badaddr
  cop := c.cop

/-- TAKING AN EXCEPTION: "Raising an exception ends the run; the outcome of the run is Exception(rec) with the
machine state as it was at the start of the raising step" (60_exceptions.md R238). Nothing of the
instruction is written (R222). "Trap entry on real hardware is not in the source and not in this spec"
(R239), so there is no next state to give (log entry 9). -/
def exceptionFault (s : State) (word : Option Word) (c : Cause) : Fault :=
  .exception (exceptionRecord s word c)

/-- `raise`, for the instruction `i`: its word is the one word that decodes to it (30_encoding.md R70; log
entry 17). -/
def raise (s : State) (i : Instr) (c : Cause) : Result :=
  .fault (exceptionFault s (some (encode i)) c)

/-- The end of an instruction that is no control transfer: with nothing raised, its effect and the sequential
advance (00_scope.md R15); else the exception, from the state before it (00_scope.md R13, R222). -/
def finish (s : State) (i : Instr) (effect : Except Cause State) : Result :=
  match effect with
  | .ok t => .next t.advance
  | .error c => raise s i c

/-- Step 4 of 10_state.md R26: a CP1 instruction "raises CoprocessorUnusable before doing anything" when
CP1_USABLE is false (41_floating_point.md, introduction; 60_exceptions.md R229). -/
def ifCp1Usable (s : State) (effect : Except Cause State) : Except Cause State :=
  if s.params.cp1Usable then effect else .error coprocessorUnusable

/-- Step 5 of 10_state.md R26: a control transfer in a delay slot is a fault; "it does not guess a behaviour"
(43_branch_jump.md R152). -/
def unlessInDelaySlot (s : State) (r : Result) : Result :=
  if s.ds then .fault .controlTransferInDelaySlot else r

/-- A conditional branch that has decided (43_branch_jump.md R150, R151): `branch_to` its PC-relative target
when taken, else `no_branch`. -/
def conditionalBranch (s : State) (taken : Bool) (offset : Imm) : Result :=
  unlessInDelaySlot s
    (.next (if taken then s.branchTo (branchTarget s.pc offset) else s.noBranch))

/-! ## Memory (20_memory.md) -/

/-- One byte of memory, or `none` where neither the launch image nor a store has defined it (10_state.md R34,
R35). This is the one place that says what an unlisted address reads as: no value (log entry 8). -/
def Memory.read (m : Memory) (a : Nat) : Option Byte := m.cells.lookup a

/-- The cells with the byte at `a` set to `b`, addresses kept strictly rising. -/
def insertCell (a : Nat) (b : Byte) : List Host.Cell → List Host.Cell
  | [] => [(a, b)]
  | c :: rest =>
    if a < c.1 then (a, b) :: c :: rest
    else if a = c.1 then (a, b) :: rest
    else c :: insertCell a b rest

/-- `M[a] <- b`. No byte is what an unlisted address reads as, so a write always lists its address. -/
def Memory.write (m : Memory) (a : Nat) (b : Byte) : Memory :=
  { cells := insertCell a b m.cells }

/-- The canonical form: strictly rising addresses, all inside the address space of 2^32 bytes (20_memory.md
R40). Equal memories are then equal data. -/
abbrev Memory.wf (m : Memory) : Prop :=
  m.cells.Pairwise (fun c d => c.1 < d.1) ∧ ∀ c ∈ m.cells, c.1 < 2 ^ 32

/-- A set of addresses with `a` added, strictly rising. -/
def insertAddress (a : Nat) : List Nat → List Nat
  | [] => [a]
  | c :: rest =>
    if a < c then a :: c :: rest
    else if a = c then c :: rest
    else c :: insertAddress a rest

/-- The addresses of the four bytes of the word at `a`: `a` to `a + 3`, modulo 2^32 (20_memory.md R43; for an
aligned `a` none of them wraps). -/
def wordAddresses (a : Word) : List Nat :=
  [a.toNat, (a + 1#32).toNat, (a + 2#32).toNat, (a + 3#32).toNat]

/-- The answer of one MemCheck table (20_memory.md R42; log entry 5). -/
def checkTable {α : Type} (t : CheckTable α) (a : Word) (w : Width) : Option α :=
  match t.rules.find? (fun r => r.width == w && decide (r.lo ≤ a) && decide (a ≤ r.hi)) with
  | some r => r.answer
  | none => t.otherwise

/-- The exception that a load's or a fetch's answer names. -/
def readAnswerName : ReadAnswer → ExceptionName
  | .tlbRefill => .tlbRefill
  | .tlbInvalid => .tlbInvalid
  | .busError => .busError
  | .watch => .watch
  | .addressError => .addressError

/-- The exception that a store's answer names. -/
def storeAnswerName : StoreAnswer → ExceptionName
  | .tlbRefill => .tlbRefill
  | .tlbInvalid => .tlbInvalid
  | .tlbModified => .tlbModified
  | .busError => .busError
  | .watch => .watch
  | .addressError => .addressError

/-- `MemCheck(addr, n, kind)`: `none` is "ok" (20_memory.md R42). -/
def memCheck (s : State) (a : Word) (w : Width) (kind : AccessKind) : Option ExceptionName :=
  match kind with
  | .load => (checkTable s.params.memCheck.load a w).map readAnswerName
  | .store => (checkTable s.params.memCheck.store a w).map storeAnswerName
  | .fetch => (checkTable s.params.memCheck.fetch a w).map readAnswerName

/-- The word at `a` in the order ENDIAN, where all its four bytes are specified (20_memory.md R43, R49). -/
def Memory.word? (m : Memory) (e : Endian) (a : Word) : Option Word :=
  (m.read a.toNat).bind fun b0 =>
  (m.read (a + 1#32).toNat).bind fun b1 =>
  (m.read (a + 2#32).toNat).bind fun b2 =>
  (m.read (a + 3#32).toNat).map fun b3 =>
  assembleWord e b0 b1 b2 b3

/-- One byte stored: `M[a] <- b`, and `a` recorded in WRITTEN (20_memory.md R50). -/
def State.storeByte (s : State) (a : Word) (b : Byte) : State :=
  { s with mem := s.mem.write a.toNat b, written := insertAddress a.toNat s.written }

/-- Four bytes stored in the order ENDIAN (20_memory.md R50). -/
def State.storeBytes (s : State) (a : Word) (v : Word) : State :=
  let e := s.params.endian
  (((s.storeByte a (wordByte e v 0)).storeByte (a + 1#32) (wordByte e v 1)).storeByte
    (a + 2#32) (wordByte e v 2)).storeByte (a + 3#32) (wordByte e v 3)

/-- `MemRead(addr, 1)`; `none` is an unspecified byte (20_memory.md R49). -/
def memRead1 (s : State) (a : Word) : Except Cause (Option Byte) :=
  match memCheck s a .byte .load with
  | some name => .error (accessCause name .load a)
  | none => .ok (s.mem.read a.toNat)

/-- A word load: misalignment first, then `MemRead(addr, 4)`; `none` is a word with an unspecified byte (20_memory.md
R46, R49; 46_load_store.md R185). -/
def memRead4 (s : State) (a : Word) : Except Cause (Option Word) :=
  if wordAligned a then
    match memCheck s a .word .load with
    | some name => .error (accessCause name .load a)
    | none => .ok (s.mem.word? s.params.endian a)
  else .error (accessCause .addressError .load a)

/-- `MemWrite(addr, 1, v)` (20_memory.md R50). -/
def memWrite1 (s : State) (a : Word) (b : Byte) : Except Cause State :=
  match memCheck s a .byte .store with
  | some name => .error (accessCause name .store a)
  | none => .ok (s.storeByte a b)

/-- A word store: misalignment first, then `MemWrite(addr, 4, v)` (20_memory.md R46, R50; 46_load_store.md
R185). -/
def memWrite4 (s : State) (a : Word) (v : Word) : Except Cause State :=
  if wordAligned a then
    match memCheck s a .word .store with
    | some name => .error (accessCause name .store a)
    | none => .ok (s.storeBytes a v)
  else .error (accessCause .addressError .store a)

/-! ## Fetch (20_memory.md R48, R51; 10_state.md R26 steps 1 to 3) -/

/-- `FetchWord(pc)`, after the alignment of step 1: MemCheck, then WRITTEN, then the bytes (20_memory.md R51). -/
def fetchWord (s : State) : Except Fault Word :=
  if wordAligned s.pc then
    match memCheck s s.pc .word .fetch with
    | some name => .error (exceptionFault s none (accessCause name .fetch s.pc))
    | none =>
      if (wordAddresses s.pc).any (fun a => s.written.contains a) then
        .error .fetchOfWrittenLocation
      else
        match s.mem.word? s.params.endian s.pc with
        | some w => .ok w
        | none => .error .fetchOfUnspecifiedByte
  else .error (exceptionFault s none (accessCause .addressError .fetch s.pc))

/-- Fetch and decode: a word that decodes to nothing raises ReservedInstruction (30_encoding.md R76). -/
def fetchInstr (s : State) : Except Fault Instr :=
  match fetchWord s with
  | .error f => .error f
  | .ok w =>
    match decode w with
    | .ok i => .ok i
    | .error _ => .error (exceptionFault s (some w) (plainCause .reservedInstruction))

/-- The word `w` in memory at `a` as the launch image holds it: its bytes in the order ENDIAN, not in WRITTEN
("the image itself may be fetched", 70_reset_and_hazards.md R261; log entry 15). -/
def State.imageWord (s : State) (a : Word) (w : Word) : State :=
  let e := s.params.endian
  { s with
    mem := (((s.mem.write a.toNat (wordByte e w 0)).write (a + 1#32).toNat (wordByte e w 1)).write
      (a + 2#32).toNat (wordByte e w 2)).write (a + 3#32).toNat (wordByte e w 3)
    written := s.written.filter (fun b => !(wordAddresses a).contains b) }

/-! ## Floating-point results (41_floating_point.md R122, FPFinish) -/

/-- `FloatingPoint(cause)` (60_exceptions.md R231). -/
def fpCause (c : FpCause) : Cause := plainCause (.floatingPoint c)

/-- What a floating-point result leaves in `f[fd]`: its pattern, or some NaN (41_floating_point.md R124). -/
def FpResult.contents : FpResult → Contents
  | .bits w => .holds w
  | .someNaN => .someNaN

/-- `FPFinish(fd, result, conditions)`: raise, and then `f[fd]` is not written; or write the result. -/
def fpFinish (s : State) (fd : FReg) (r : FpResult × FpFacts) : Except Cause State :=
  match fpRaised s.params r.2 with
  | some c => .error (fpCause c)
  | none => .ok (s.setFpr fd r.1.contents)

end Sys2Proof.Machine
end

