-- ==== Sys2Proof/Machine/Branch.lean ====
section
/-! DEFINITION. Branches and jumps: BEQ, BNE, BGEZ, BGTZ, BLEZ, BLTZ, J, JAL, JALR, JR (43_branch_jump.md). Each has
a delay slot (R150), may not stand in one (R152), and raises nothing of its own. B is BEQ (R153). -/

namespace Sys2Proof.Machine

/-- BEQ rs, rt, offset (R154). -/
def execBeq (rs rt : Reg) (offset : Imm) (s : State) : Result :=
  conditionalBranch s (s.x .first rs == s.x .second rt) offset

/-- BNE rs, rt, offset (R155). -/
def execBne (rs rt : Reg) (offset : Imm) (s : State) : Result :=
  conditionalBranch s (s.x .first rs != s.x .second rt) offset

/-- BGEZ rs, offset (R156). -/
def execBgez (rs : Reg) (offset : Imm) (s : State) : Result :=
  conditionalBranch s (decide ((s.x .first rs).toInt ≥ 0)) offset

/-- BGTZ rs, offset (R157). -/
def execBgtz (rs : Reg) (offset : Imm) (s : State) : Result :=
  conditionalBranch s (decide ((s.x .first rs).toInt > 0)) offset

/-- BLEZ rs, offset (R158). -/
def execBlez (rs : Reg) (offset : Imm) (s : State) : Result :=
  conditionalBranch s (decide ((s.x .first rs).toInt ≤ 0)) offset

/-- BLTZ rs, offset (R159). -/
def execBltz (rs : Reg) (offset : Imm) (s : State) : Result :=
  conditionalBranch s (decide ((s.x .first rs).toInt < 0)) offset

/-- J target (R160). -/
def execJ (index : BitVec 26) (s : State) : Result :=
  unlessInDelaySlot s (.next (s.branchTo (jumpTarget s.pc index)))

/-- JAL target: the link to GPR 31 (R161). -/
def execJal (index : BitVec 26) (s : State) : Result :=
  unlessInDelaySlot s
    (.next ((s.setX 31#5 (returnLink s.pc)).branchTo (jumpTarget s.pc index)))

/-- JALR rd, rs: UNPREDICTABLE, so a fault, when the registers are the same; the target is read before the
link is written (R162). -/
def execJalr (rd rs : Reg) (s : State) : Result :=
  unlessInDelaySlot s
    (if rs = rd then .fault .jalrSameRegister
     else .next ((s.setX rd (returnLink s.pc)).branchTo (s.x .first rs)))

/-- JR rs: a misaligned target raises when it is fetched, not here (R163, 20_memory.md R48). -/
def execJr (rs : Reg) (s : State) : Result :=
  unlessInDelaySlot s (.next (s.branchTo (s.x .first rs)))

end Sys2Proof.Machine
end

