-- ==== Sys2Proof/Machine/CondMove.lean ====
section
/-! DEFINITION. Conditional moves: MOVN, MOVZ (47_conditional_move.md). The tested register is rt, the copied one rs
(R200). Neither raises. A copy of an unspecified register leaves rd unspecified (log entry 25). -/

namespace Sys2Proof.Machine

/-- MOVN rd, rs, rt (R201). -/
def execMovn (rd rs rt : Reg) (s : State) : Result :=
  finish s (.movn rd rs rt) (.ok (if s.x .second rt ≠ 0#32 then s.setGpr rd (s.gprAt rs) else s))

/-- MOVZ rd, rs, rt (R202). -/
def execMovz (rd rs rt : Reg) (s : State) : Result :=
  finish s (.movz rd rs rt) (.ok (if s.x .second rt = 0#32 then s.setGpr rd (s.gprAt rs) else s))

end Sys2Proof.Machine
end

