-- ==== Sys2Proof/Machine/FloatingPoint.lean ====
section
/-! DEFINITION. Coprocessor 1: ADD.S, SUB.S, MUL.S, DIV.S, MOV.S, NEG.S, MFC1, MTC1 (41_floating_point.md). Each
raises CoprocessorUnusable before anything else when CP1_USABLE is false (10_state.md R26 step 4). MOV.S, MFC1 and MTC1
copy whatever the register holds, an unspecified value or some NaN too (log entry 25). -/

namespace Sys2Proof.Machine

/-- ADD.S fd, fs, ft (R126). -/
def execAddS (fd fs ft : FReg) (s : State) : Result :=
  finish s (.addS fd fs ft)
    (ifCp1Usable s (fpFinish s fd (fpAddS s.params.fpRm (s.f .first fs) (s.f .second ft))))

/-- SUB.S fd, fs, ft (R127). -/
def execSubS (fd fs ft : FReg) (s : State) : Result :=
  finish s (.subS fd fs ft)
    (ifCp1Usable s (fpFinish s fd (fpSubS s.params.fpRm (s.f .first fs) (s.f .second ft))))

/-- MUL.S fd, fs, ft (R128). -/
def execMulS (fd fs ft : FReg) (s : State) : Result :=
  finish s (.mulS fd fs ft)
    (ifCp1Usable s (fpFinish s fd (fpMulS s.params.fpRm (s.f .first fs) (s.f .second ft))))

/-- DIV.S fd, fs, ft (R129). -/
def execDivS (fd fs ft : FReg) (s : State) : Result :=
  finish s (.divS fd fs ft)
    (ifCp1Usable s (fpFinish s fd (fpDivS s.params.fpRm (s.f .first fs) (s.f .second ft))))

/-- MOV.S fd, fs: "non-arithmetic; it causes no IEEE 754 exceptions" (R130). -/
def execMovS (fd fs : FReg) (s : State) : Result :=
  finish s (.movS fd fs) (ifCp1Usable s (.ok (s.setFpr fd (s.fprAt fs))))

/-- NEG.S fd, fs: a NaN is an invalid operation, a subnormal follows FP_SUBNORMAL, any other value changes its
sign bit (R131, 90_conflicts.md C2 and C12). -/
def execNegS (fd fs : FReg) (s : State) : Result :=
  finish s (.negS fd fs)
    (ifCp1Usable s
      (if isNaN (s.f .first fs) then
        if s.params.fpEnables.invalid then .error (fpCause .invalidOperation)
        else .ok (s.setFpr fd .someNaN)
      else if isSubnormal (s.f .first fs) && s.params.fpSubnormal == .unimplemented then
        .error (fpCause .unimplementedOperation)
      else .ok (s.setF fd (flipSign (s.f .first fs)))))

/-- MFC1 rt, fs: the bit pattern to a GPR (R132). -/
def execMfc1 (rt : Reg) (fs : FReg) (s : State) : Result :=
  finish s (.mfc1 rt fs) (ifCp1Usable s (.ok (s.setGpr rt (s.fprAt fs))))

/-- MTC1 rt, fs: GPR rt to FPR fs (R133). -/
def execMtc1 (rt : Reg) (fs : FReg) (s : State) : Result :=
  finish s (.mtc1 rt fs) (ifCp1Usable s (.ok (s.setFpr fs (s.gprAt rt))))

end Sys2Proof.Machine
end

