-- ==== Sys2Proof/Machine/Integer.lean ====
section
/-! DEFINITION. Integer add, subtract and compare: ADD, ADDI, ADDIU, ADDU, SUB, SUBU, SLT, SLTI, SLTIU, SLTU
(40_integer_arithmetic.md). -/

namespace Sys2Proof.Machine

/-- The trapping forms: the exact signed result `t`, or IntegerOverflow with the destination unmodified
(R100, R223). -/
def writeOrTrap (s : State) (r : Reg) (t : Int) : Except Cause State :=
  if signedOverflow t then .error (plainCause .integerOverflow) else .ok (s.setX r (lowWord t))

/-- ADD rd, rs, rt (R101). -/
def execAdd (rd rs rt : Reg) (s : State) : Result :=
  finish s (.add rd rs rt) (writeOrTrap s rd ((s.x .first rs).toInt + (s.x .second rt).toInt))

/-- ADDI rt, rs, immediate (R102). -/
def execAddi (rt rs : Reg) (imm : Imm) (s : State) : Result :=
  finish s (.addi rt rs imm) (writeOrTrap s rt ((s.x .first rs).toInt + (sextImm imm).toInt))

/-- ADDIU rt, rs, immediate: modulo 2^32, the immediate signed (R103). -/
def execAddiu (rt rs : Reg) (imm : Imm) (s : State) : Result :=
  finish s (.addiu rt rs imm) (.ok (s.setX rt (s.x .first rs + sextImm imm)))

/-- ADDU rd, rs, rt: modulo 2^32, into rd (R104, 90_conflicts.md C1). -/
def execAddu (rd rs rt : Reg) (s : State) : Result :=
  finish s (.addu rd rs rt) (.ok (s.setX rd (s.x .first rs + s.x .second rt)))

/-- SUB rd, rs, rt (R105). -/
def execSub (rd rs rt : Reg) (s : State) : Result :=
  finish s (.sub rd rs rt) (writeOrTrap s rd ((s.x .first rs).toInt - (s.x .second rt).toInt))

/-- SUBU rd, rs, rt: modulo 2^32 (R106). -/
def execSubu (rd rs rt : Reg) (s : State) : Result :=
  finish s (.subu rd rs rt) (.ok (s.setX rd (s.x .first rs - s.x .second rt)))

/-- SLT rd, rs, rt: as signed integers (R107). -/
def execSlt (rd rs rt : Reg) (s : State) : Result :=
  finish s (.slt rd rs rt) (.ok (s.setX rd (boolWord (decide ((s.x .first rs).toInt < (s.x .second rt).toInt)))))

/-- SLTI rt, rs, immediate: as signed integers (R108). -/
def execSlti (rt rs : Reg) (imm : Imm) (s : State) : Result :=
  finish s (.slti rt rs imm)
    (.ok (s.setX rt (boolWord (decide ((s.x .first rs).toInt < (sextImm imm).toInt)))))

/-- SLTIU rt, rs, immediate: the immediate sign-extended, then compared as unsigned (R109). -/
def execSltiu (rt rs : Reg) (imm : Imm) (s : State) : Result :=
  finish s (.sltiu rt rs imm)
    (.ok (s.setX rt (boolWord (decide ((s.x .first rs).toNat < (sextImm imm).toNat)))))

/-- SLTU rd, rs, rt: as unsigned integers (R110). -/
def execSltu (rd rs rt : Reg) (s : State) : Result :=
  finish s (.sltu rd rs rt) (.ok (s.setX rd (boolWord (decide ((s.x .first rs).toNat < (s.x .second rt).toNat)))))

end Sys2Proof.Machine
end

