-- ==== Sys2Proof/Machine/LoadStore.lean ====
section
/-! DEFINITION. Loads and stores: LB, LBU, LW, SB, SW, LWC1, SWC1 (46_load_store.md). Alignment, then MemCheck, then the
access, then the destination register (R185); if the access raises, nothing is changed. A load of an unspecified byte
leaves its register unspecified (93_implementation_defined.md U18); a store of an unspecified register reads it, a
free draw, and makes the bytes specified (10_state.md R35, log entry 25). -/

namespace Sys2Proof.Machine

/-- LB rt, offset(base): sign-extended (R187). -/
def execLb (rt : Reg) (offset : Imm) (base : Reg) (s : State) : Result :=
  finish s (.lb rt offset base)
    ((memRead1 s (effectiveAddress (s.x .first base) offset)).map fun b => s.setGpr rt (loaded sextByte b))

/-- LBU rt, offset(base): zero-extended (R188). -/
def execLbu (rt : Reg) (offset : Imm) (base : Reg) (s : State) : Result :=
  finish s (.lbu rt offset base)
    ((memRead1 s (effectiveAddress (s.x .first base) offset)).map fun b => s.setGpr rt (loaded zextByte b))

/-- LW rt, offset(base) (R189). -/
def execLw (rt : Reg) (offset : Imm) (base : Reg) (s : State) : Result :=
  finish s (.lw rt offset base)
    ((memRead4 s (effectiveAddress (s.x .first base) offset)).map fun v => s.setGpr rt (loaded id v))

/-- SB rt, offset(base): the least significant byte of GPR rt (R190). -/
def execSb (rt : Reg) (offset : Imm) (base : Reg) (s : State) : Result :=
  finish s (.sb rt offset base)
    (memWrite1 s (effectiveAddress (s.x .first base) offset) (lowByte (s.x .second rt)))

/-- SW rt, offset(base) (R191). -/
def execSw (rt : Reg) (offset : Imm) (base : Reg) (s : State) : Result :=
  finish s (.sw rt offset base)
    (memWrite4 s (effectiveAddress (s.x .first base) offset) (s.x .second rt))

/-- LWC1 ft, offset(base): usability before any address check (R192, 60_exceptions.md R237). -/
def execLwc1 (ft : FReg) (offset : Imm) (base : Reg) (s : State) : Result :=
  finish s (.lwc1 ft offset base)
    (ifCp1Usable s
      ((memRead4 s (effectiveAddress (s.x .first base) offset)).map fun v => s.setFpr ft (loaded id v)))

/-- SWC1 ft, offset(base): usability before any address check (R193, 60_exceptions.md R237). -/
def execSwc1 (ft : FReg) (offset : Imm) (base : Reg) (s : State) : Result :=
  finish s (.swc1 ft offset base)
    (ifCp1Usable s (memWrite4 s (effectiveAddress (s.x .first base) offset) (s.f .second ft)))

end Sys2Proof.Machine
end

