-- ==== Sys2Proof/Machine/Logical.lean ====
section
/-! DEFINITION. Bitwise logic and LUI: AND, ANDI, OR, ORI, XOR, XORI, NOR, LUI (42_logical.md). None raises. -/

namespace Sys2Proof.Machine

/-- AND rd, rs, rt (R141). -/
def execAnd (rd rs rt : Reg) (s : State) : Result :=
  finish s (.and rd rs rt) (.ok (s.setX rd (s.x .first rs &&& s.x .second rt)))

/-- ANDI rt, rs, immediate: zero-extended (R142). -/
def execAndi (rt rs : Reg) (imm : Imm) (s : State) : Result :=
  finish s (.andi rt rs imm) (.ok (s.setX rt (s.x .first rs &&& zextImm imm)))

/-- OR rd, rs, rt (R143). -/
def execOr (rd rs rt : Reg) (s : State) : Result :=
  finish s (.or rd rs rt) (.ok (s.setX rd (s.x .first rs ||| s.x .second rt)))

/-- ORI rt, rs, immediate: zero-extended (R144). -/
def execOri (rt rs : Reg) (imm : Imm) (s : State) : Result :=
  finish s (.ori rt rs imm) (.ok (s.setX rt (s.x .first rs ||| zextImm imm)))

/-- XOR rd, rs, rt (R145). -/
def execXor (rd rs rt : Reg) (s : State) : Result :=
  finish s (.xor rd rs rt) (.ok (s.setX rd (s.x .first rs ^^^ s.x .second rt)))

/-- XORI rt, rs, immediate: zero-extended (R146). -/
def execXori (rt rs : Reg) (imm : Imm) (s : State) : Result :=
  finish s (.xori rt rs imm) (.ok (s.setX rt (s.x .first rs ^^^ zextImm imm)))

/-- NOR rd, rs, rt: "complement of all 32 bits of the OR" (R147). -/
def execNor (rd rs rt : Reg) (s : State) : Result :=
  finish s (.nor rd rs rt) (.ok (s.setX rd (~~~(s.x .first rs ||| s.x .second rt))))

/-- LUI rt, immediate (R148). -/
def execLui (rt : Reg) (imm : Imm) (s : State) : Result :=
  finish s (.lui rt imm) (.ok (s.setX rt (upperImm imm)))

end Sys2Proof.Machine
end

