-- ==== Sys2Proof/Machine/MulDiv.lean ====
section
/-! DEFINITION. Multiply, divide and HI/LO: MULT, MULTU, MUL, DIV, DIVU, MFHI, MFLO (44_multiply_divide.md). None
raises. -/

namespace Sys2Proof.Machine

/-- `HI <- p[63:32]; LO <- p[31:0]` of an exact product (R171, R172). -/
def State.setProduct (s : State) (p : Int) : State :=
  s.setHiLo (.holds (highWord p)) (.holds (lowWord p))

/-- MULT rs, rt: signed (R171). -/
def execMult (rs rt : Reg) (s : State) : Result :=
  finish s (.mult rs rt) (.ok (s.setProduct ((s.x .first rs).toInt * (s.x .second rt).toInt)))

/-- MULTU rs, rt: unsigned (R172). -/
def execMultu (rs rt : Reg) (s : State) : Result :=
  finish s (.multu rs rt) (.ok (s.setProduct (((s.x .first rs).toNat * (s.x .second rt).toNat : Nat) : Int)))

/-- MUL rd, rs, rt: the low word to rd; "The contents of HI and LO are UNPREDICTABLE after the operation", "even
when rd = 0" (R173). -/
def execMul (rd rs rt : Reg) (s : State) : Result :=
  finish s (.mul rd rs rt)
    (.ok ((s.setX rd (lowWord ((s.x .first rs).toInt * (s.x .second rt).toInt))).unspecifyHiLo))

/-- The effect of DIV on the signed operands (R174, R175): HI and LO unspecified for a zero divisor and for
-2^31 / -1, else the quotient truncated toward zero and the remainder. -/
def divideSigned (s : State) (a b : Int) : State :=
  if b = 0 then s.unspecifyHiLo
  else if a = -2 ^ 31 ∧ b = -1 then s.unspecifyHiLo
  else
    let q := a.tdiv b
    s.setHiLo (.holds (lowWord (a - q * b))) (.holds (lowWord q))

/-- DIV rs, rt (R175). -/
def execDiv (rs rt : Reg) (s : State) : Result :=
  finish s (.div rs rt) (.ok (divideSigned s (s.x .first rs).toInt (s.x .second rt).toInt))

/-- The effect of DIVU on the unsigned operands (R176). -/
def divideUnsigned (s : State) (a b : Nat) : State :=
  if b = 0 then s.unspecifyHiLo
  else s.setHiLo (.holds (BitVec.ofNat 32 (a % b))) (.holds (BitVec.ofNat 32 (a / b)))

/-- DIVU rs, rt (R176). -/
def execDivu (rs rt : Reg) (s : State) : Result :=
  finish s (.divu rs rt) (.ok (divideUnsigned s (s.x .first rs).toNat (s.x .second rt).toNat))

/-- MFHI rd: HI is not changed by the read (R177). A copy of an unspecified HI leaves rd unspecified (10_state.md R35,
95_test_vectors.md V111). -/
def execMfhi (rd : Reg) (s : State) : Result :=
  finish s (.mfhi rd) (.ok (s.setGpr rd s.hi.contents))

/-- MFLO rd: as MFHI (R178). -/
def execMflo (rd : Reg) (s : State) : Result :=
  finish s (.mflo rd) (.ok (s.setGpr rd s.lo.contents))

end Sys2Proof.Machine
end

