-- ==== Sys2Proof/Machine/Shift.lean ====
section
/-! DEFINITION. Shifts: SLL, SLLV, SRA, SRAV, SRL, SRLV (48_shift.md). The shifted value is x[rt]; the amount is sa or
x[rs][4:0] (R205). None raises. -/

namespace Sys2Proof.Machine

/-- SLL rd, rt, sa (R206). -/
def execSll (rd rt : Reg) (sa : BitVec 5) (s : State) : Result :=
  finish s (.sll rd rt sa) (.ok (s.setX rd (shl (s.x .second rt) sa)))

/-- SLLV rd, rt, rs (R207). -/
def execSllv (rd rt rs : Reg) (s : State) : Result :=
  finish s (.sllv rd rt rs) (.ok (s.setX rd (shl (s.x .second rt) (shiftAmount (s.x .first rs)))))

/-- SRA rd, rt, sa (R208). -/
def execSra (rd rt : Reg) (sa : BitVec 5) (s : State) : Result :=
  finish s (.sra rd rt sa) (.ok (s.setX rd (shra (s.x .second rt) sa)))

/-- SRAV rd, rt, rs (R209). -/
def execSrav (rd rt rs : Reg) (s : State) : Result :=
  finish s (.srav rd rt rs) (.ok (s.setX rd (shra (s.x .second rt) (shiftAmount (s.x .first rs)))))

/-- SRL rd, rt, sa (R210). -/
def execSrl (rd rt : Reg) (sa : BitVec 5) (s : State) : Result :=
  finish s (.srl rd rt sa) (.ok (s.setX rd (shrl (s.x .second rt) sa)))

/-- SRLV rd, rt, rs (R211). -/
def execSrlv (rd rt rs : Reg) (s : State) : Result :=
  finish s (.srlv rd rt rs) (.ok (s.setX rd (shrl (s.x .second rt) (shiftAmount (s.x .first rs)))))

end Sys2Proof.Machine
end

