-- ==== Sys2Proof/Machine/System.lean ====
section
/-! DEFINITION. SYSCALL (49_system.md). -/

namespace Sys2Proof.Machine

/-- SYSCALL: "raise SystemCall -- immediately and unconditionally"; every value of the code field behaves the
same, and the record's word carries it (R216, 60_exceptions.md R224). The run ends (R215, R238). -/
def execSyscall (code : BitVec 20) (s : State) : Result :=
  raise s (.syscall code) (plainCause .systemCall)

end Sys2Proof.Machine
end

