-- ==== Sys2Proof/Machine/Step.lean ====
section
/-! DEFINITION. One step (10_state.md R26): fetch and decode (steps 1 to 3), then the instruction (steps 4 to 7,
which its meaning holds). -/

namespace Sys2Proof.Machine

/-- One step executes one instruction (10_state.md R26), or ends the run (70_reset_and_hazards.md R272). -/
def step (s : State) : Host.Outcome State Fault Refusal :=
  match fetchInstr s with
  | .error f => .fault f
  | .ok i => exec i s

/-- `s` with the word of an opcode-table row as the launch image's word at `pc`, which is where `step` fetches
(log entry 15). -/
def State.withFetchWord (s : State) (nbits w : Nat) : State :=
  s.imageWord s.pc (tableWord nbits w)

end Sys2Proof.Machine
end

