-- ==== Sys2Proof/Machine/Assembler.lean ====
section
/-! DEFINITION. The assembler's rules: the fields it computes from written operands, the idiom B and the
pseudo-instructions LA and LI as the machine instructions they stand for, and the written form of each
instruction (30_encoding.md R81 to R85, 43_branch_jump.md R153, 45_pseudo_instructions.md). `none` is an
assembly error. The machine never sees any of this. -/

namespace Sys2Proof.Machine

/-! ## Operand fields (30_encoding.md R83, R84) -/

/-- "a signed integer from -32768 to 32767 and the field is its low 16 bits": ADDI, ADDIU, SLTI, SLTIU and load
and store offsets (R83). -/
def signedField (n : Int) : Option Imm :=
  if -32768 ≤ n ∧ n ≤ 32767 then some (BitVec.ofInt 16 n) else none

/-- "an integer from 0 to 65535 and the field is that value": ANDI, ORI, XORI and LUI (R83). -/
def unsignedField (n : Int) : Option Imm :=
  if 0 ≤ n ∧ n ≤ 65535 then some (BitVec.ofInt 16 n) else none

/-- "the operand sa is 0 to 31": SLL, SRL, SRA (R83). -/
def shiftField (n : Int) : Option (BitVec 5) :=
  if 0 ≤ n ∧ n ≤ 31 then some (BitVec.ofInt 5 n) else none

/-- The offset field of a branch at `a` to the destination `t`: the distance `T - (A + 4)` is a multiple of 4 in
-131072 to 131068, and the field is `((T - (A + 4)) >> 2)[15:0]` (R84). The difference of two addresses is
taken modulo 2^32 and read as signed, as the branch itself adds it (00_scope.md R8, 43_branch_jump.md R151). -/
def branchField (a t : Word) : Option Imm :=
  let d : Int := (t - (a + 4#32)).toInt
  if d % 4 = 0 ∧ -131072 ≤ d ∧ d ≤ 131068 then some (BitVec.ofInt 16 (d / 4)) else none

/-- The instr_index of a jump at `a` to `t`: `T[1:0] = 0` and `T[31:28] = (A + 4)[31:28]`, and the field is
`T[27:2]` (R84). -/
def jumpField (a t : Word) : Option (BitVec 26) :=
  if t.extractLsb' 0 2 = 0#2 ∧ t.extractLsb' 28 4 = (a + 4#32).extractLsb' 28 4 then
    some (t.extractLsb' 2 26)
  else none

/-! ## Idiom and pseudo-instructions -/

/-- B offset: "BEQ r0, r0, offset" (43_branch_jump.md R153). -/
def idiomB (offset : Imm) : Instr := .beq 0#5 0#5 offset

/-- LA rt, label: LUI rt, L[31:16], then ORI rt, rt, L[15:0], always both (45_pseudo_instructions.md R181). -/
def pseudoLa (rt : Reg) (l : Word) : List Instr :=
  [.lui rt (l.extractLsb' 16 16), .ori rt rt (l.extractLsb' 0 16)]

/-- LI rt, immediate: ADDI rt, $0, immediate, for -32768 to 32767; else an assembly error
(45_pseudo_instructions.md R182). -/
def pseudoLi (rt : Reg) (n : Int) : Option Instr :=
  (signedField n).map fun imm => .addi rt 0#5 imm

/-- "JALR rs (rd = 31 implied)" (43_branch_jump.md R162). -/
def jalrOneOperand (rs : Reg) : Instr := .jalr 31#5 rs

/-- SYSCALL with no operand assembles code 0 (49_system.md R216). -/
def syscallNoOperand : Instr := .syscall 0#20

/-- The word 0x00000000, "the conventional MIPS NOP", is SLL $0, $0, 0 (30_encoding.md R77). -/
def nop : Instr := .sll 0#5 0#5 0#5

/-! ## The written form (30_encoding.md R81, R82) -/

/-- GPR `n` is written `$n` (R82). -/
def regText (r : Reg) : String := "$" ++ toString r.toNat

/-- FPR `n` is written `$fn` (R82). -/
def fregText (r : FReg) : String := "$f" ++ toString r.toNat

/-- A signed immediate or offset (R83); for a branch the signed value of its field, as the one-line examples of
43_branch_jump.md write it (R84). -/
def signedText (imm : Imm) : String := toString imm.toInt

/-- An unsigned immediate (R83). -/
def unsignedText (imm : Imm) : String := toString imm.toNat

/-- `OP a, b, c` (R81). -/
def text3 (op a b c : String) : String := op ++ " " ++ a ++ ", " ++ b ++ ", " ++ c

/-- `OP a, b` (R81). -/
def text2 (op a b : String) : String := op ++ " " ++ a ++ ", " ++ b

/-- `OP a` (R81). -/
def text1 (op a : String) : String := op ++ " " ++ a

/-- `OP rt, offset(base)` (R81). -/
def textMem (op r : String) (offset : Imm) (base : Reg) : String :=
  op ++ " " ++ r ++ ", " ++ signedText offset ++ "(" ++ regText base ++ ")"

/-- The assembler form of an instruction, operands in the order of R81. DESIGN CHOICE (log entry 26, safe): SYSCALL is
written with no operand whatever its code field holds, though R81 and 49_system.md R216 give that form to code
0 and give no form to another code, so a code that is not 0 does not show; and J and JAL show their instr_index
field, since the address of the instruction, which their target operand needs (R84), is not an argument. -/
def instrText (i : Instr) : String :=
  let op := i.mnemonic
  match i with
  | .add rd rs rt | .addu rd rs rt | .sub rd rs rt | .subu rd rs rt | .slt rd rs rt
  | .sltu rd rs rt | .and rd rs rt | .or rd rs rt | .xor rd rs rt | .nor rd rs rt
  | .mul rd rs rt | .movn rd rs rt | .movz rd rs rt =>
    text3 op (regText rd) (regText rs) (regText rt)
  | .addi rt rs imm | .addiu rt rs imm | .slti rt rs imm | .sltiu rt rs imm =>
    text3 op (regText rt) (regText rs) (signedText imm)
  | .andi rt rs imm | .ori rt rs imm | .xori rt rs imm =>
    text3 op (regText rt) (regText rs) (unsignedText imm)
  | .lui rt imm => text2 op (regText rt) (unsignedText imm)
  | .sll rd rt sa | .sra rd rt sa | .srl rd rt sa =>
    text3 op (regText rd) (regText rt) (toString sa.toNat)
  | .sllv rd rt rs | .srav rd rt rs | .srlv rd rt rs =>
    text3 op (regText rd) (regText rt) (regText rs)
  | .mult rs rt | .multu rs rt | .div rs rt | .divu rs rt => text2 op (regText rs) (regText rt)
  | .mfhi rd | .mflo rd => text1 op (regText rd)
  | .lb rt offset base | .lbu rt offset base | .lw rt offset base | .sb rt offset base
  | .sw rt offset base => textMem op (regText rt) offset base
  | .lwc1 ft offset base | .swc1 ft offset base => textMem op (fregText ft) offset base
  | .beq rs rt offset | .bne rs rt offset =>
    text3 op (regText rs) (regText rt) (signedText offset)
  | .bgez rs offset | .bgtz rs offset | .blez rs offset | .bltz rs offset =>
    text2 op (regText rs) (signedText offset)
  | .j index | .jal index => text1 op (toString index.toNat)
  | .jalr rd rs => text2 op (regText rd) (regText rs)
  | .jr rs => text1 op (regText rs)
  | .addS fd fs ft | .subS fd fs ft | .mulS fd fs ft | .divS fd fs ft =>
    text3 op (fregText fd) (fregText fs) (fregText ft)
  | .movS fd fs | .negS fd fs => text2 op (fregText fd) (fregText fs)
  | .mfc1 rt fs | .mtc1 rt fs => text2 op (regText rt) (fregText fs)
  | .syscall _ => op

end Sys2Proof.Machine
end

