-- ==== Sys2Proof/Safety.lean ====
section
/-! DEFINITION. What counts as a safe run, and how a run ends, in the terms the statements use. -/

namespace Sys2Proof

open Machine

/-- A set of addresses as the model keeps it: strictly rising, inside the address space (20_memory.md R40, R50). -/
abbrev addressesWf (l : List Nat) : Prop := l.Pairwise (· < ·) ∧ ∀ a ∈ l, a < 2 ^ 32

/-- The invariant of the machine. Memory and WRITTEN have their canonical form; every address in WRITTEN holds a
specified byte, since a store put one there (20_memory.md R50); the storage behind GPR 0 is 0 (10_state.md
R34); outside a delay slot `npc = pc + 4` (10_state.md R27), and the instruction in a delay slot is
word-aligned, because the control transfer before it was fetched (20_memory.md R48). -/
structure MachineInv (s : State) : Prop where
  memory : s.mem.wf
  writtenWf : addressesWf s.written
  writtenSpecified : ∀ a ∈ s.written, s.mem.read a ≠ none
  gprZero : s.gpr[0] = .holds 0#32
  sequential : s.ds = false → s.npc = s.pc + 4#32
  slotAligned : s.ds = true → wordAligned s.pc = true

/-- One instruction completes: the step gives a next state. -/
def StepsTo (s t : State) : Prop := step s = .next t

/-- `n` steps, each of which gives a next state. -/
def RunsTo : Nat → State → State → Prop
  | 0, s, t => s = t
  | n + 1, s, t => ∃ u, StepsTo s u ∧ RunsTo n u t

/-- The run ends with `Exception(rec)` after `n` completed steps, in the final state `t` (60_exceptions.md R238,
70_reset_and_hazards.md R272). -/
def EndsInException (n : Nat) (s t : State) (rec : ExceptionRecord) : Prop :=
  RunsTo n s t ∧ step t = .fault (.exception rec)

/-- The clean end of a run: SYSCALL (70_reset_and_hazards.md R272). -/
def EndsCleanly (n : Nat) (s t : State) : Prop :=
  ∃ rec, EndsInException n s t rec ∧ rec.name = .systemCall

/-- The faults that are not exceptions (60_exceptions.md R232): past them "the spec promises nothing". -/
def isModelFault : Fault → Bool
  | .exception _ => false
  | .controlTransferInDelaySlot | .jalrSameRegister => true
  | .fetchOfWrittenLocation | .fetchOfUnspecifiedByte => true

/-- A run of `n` steps is safe when it completes them, or ends with an exception on the way. -/
def SafeRun : Nat → State → Prop
  | 0, _ => True
  | n + 1, s =>
    match step s with
    | .next t => SafeRun n t
    | .fault f => isModelFault f = false
    | .refused _ => False

end Sys2Proof
end

