-- ==== Sys2Proof/Certificates/Slice0/Obligations.lean ====
section
/-! DEFINITION. The statements for the provers. First the words they share: frames, exact values, exact rounding,
and the tables of the spec that they quote. What an operand reads is `s.x` or `s.f` at the slot of its
field, `.first` for rs, base and fs, `.second` for rt and ft, so that a statement holds whatever an unspecified
register gives. Results are stated in exact integer or rational arithmetic, not
with the operations the meanings use. -/

namespace Sys2Proof.Statements

open Machine

/-! ## Frames -/

/-- GPR `q` may change, no other. -/
def GprsBut (q : Reg) (s t : State) : Prop := ∀ r, r ≠ q → t.gprAt r = s.gprAt r

def SameGprs (s t : State) : Prop := ∀ r, t.gprAt r = s.gprAt r

/-- FPR `q` may change, no other. -/
def FprsBut (q : FReg) (s t : State) : Prop := ∀ r, r ≠ q → t.fprAt r = s.fprAt r

def SameFprs (s t : State) : Prop := ∀ r, t.fprAt r = s.fprAt r

def SameHiLo (s t : State) : Prop := t.hi = s.hi ∧ t.lo = s.lo

/-- Every byte of memory reads as before, and nothing was stored to. -/
def SameMemory (s t : State) : Prop := (∀ a, t.mem.read a = s.mem.read a) ∧ t.written = s.written

/-- `(pc, npc, ds) <- (npc, npc + 4, false)`. -/
def AdvancesInOrder (s t : State) : Prop := t.pc = s.npc ∧ t.npc = s.npc + 4#32 ∧ t.ds = false

/-- The instruction changed GPR `rd` alone: it holds what `c` says, or 0 when it is GPR 0. -/
def GprResult (rd : Reg) (c : Contents) (s t : State) : Prop :=
  t.gprAt rd = (if rd = 0#5 then .holds 0#32 else c) ∧ GprsBut rd s t ∧ SameFprs s t ∧ SameHiLo s t ∧
    SameMemory s t ∧ t.params = s.params

/-- The instruction changed FPR `fd` alone, to hold what `c` says. -/
def FprResult (fd : FReg) (c : Contents) (s t : State) : Prop :=
  t.fprAt fd = c ∧ FprsBut fd s t ∧ SameGprs s t ∧ SameHiLo s t ∧ SameMemory s t ∧ t.params = s.params

/-- The instruction changed HI and LO alone. -/
def HiLoResult (hi lo : SpecialReg) (s t : State) : Prop :=
  t.hi = hi ∧ t.lo = lo ∧ SameGprs s t ∧ SameFprs s t ∧ SameMemory s t ∧ t.params = s.params

/-- The instruction changed no register but `pc`, `npc` and `ds`. -/
def NoResult (s t : State) : Prop :=
  SameGprs s t ∧ SameFprs s t ∧ SameHiLo s t ∧ SameMemory s t ∧ t.params = s.params

/-- `i` completes at `s`, in sequence, and leaves in GPR `rd` what `c` says. -/
def LeavesInGpr (i : Instr) (s : State) (rd : Reg) (c : Contents) : Prop :=
  ∃ t, exec i s = .next t ∧ GprResult rd c s t ∧ t.draws = s.draws + 1 ∧ AdvancesInOrder s t

/-- `i` completes at `s`, in sequence, with the value `v` in GPR `rd`. -/
def WritesGpr (i : Instr) (s : State) (rd : Reg) (v : Word) : Prop := LeavesInGpr i s rd (.holds v)

/-- `i` completes at `s`, in sequence, with this HI and LO. -/
def WritesHiLo (i : Instr) (s : State) (hi lo : SpecialReg) : Prop :=
  ∃ t, exec i s = .next t ∧ HiLoResult hi lo s t ∧ t.draws = s.draws + 1 ∧ AdvancesInOrder s t

/-- `i` completes at `s`, in sequence, and leaves in FPR `fd` what `c` says. -/
def LeavesInFpr (i : Instr) (s : State) (fd : FReg) (c : Contents) : Prop :=
  ∃ t, exec i s = .next t ∧ FprResult fd c s t ∧ t.draws = s.draws + 1 ∧ AdvancesInOrder s t

/-- `i` completes at `s`, in sequence, with the value `v` in FPR `fd`. -/
def WritesFpr (i : Instr) (s : State) (fd : FReg) (v : Word) : Prop := LeavesInFpr i s fd (.holds v)

/-! ## Exceptions -/

/-- The record of an exception that instruction `i` raises at `s` (60_exceptions.md R238), its word being the one
word of `i`. -/
def recordAt (s : State) (i : Instr) (name : ExceptionName) (kind : Option AccessKind)
    (badaddr : Option Word) (cop : Option Nat) : ExceptionRecord where
  name := name
  pc := s.pc
  ds := s.ds
  restart := if s.ds then s.pc - 4#32 else s.pc
  word := some (encode i)
  kind := kind
  badaddr := badaddr
  cop := cop

/-- `i` raises `name` at `s`, with a record of the common fields. -/
def Raises (i : Instr) (s : State) (name : ExceptionName) : Prop :=
  exec i s = .fault (.exception (recordAt s i name none none none))

/-- `i` raises an exception of an access at `s`. -/
def RaisesAt (i : Instr) (s : State) (name : ExceptionName) (kind : AccessKind) (a : Word) : Prop :=
  exec i s = .fault (.exception (recordAt s i name (some kind) (some a) none))

/-- `i` raises `CoprocessorUnusable(1)` at `s` (60_exceptions.md R229). -/
def RaisesUnusable (i : Instr) (s : State) : Prop :=
  exec i s = .fault (.exception (recordAt s i .coprocessorUnusable none none (some 1)))

/-- The exceptions of an access (R225 to R227, R230): the six MemCheck may name (20_memory.md R42). -/
def isAccessName (n : ExceptionName) : Prop :=
  n = .addressError ∨ n = .tlbRefill ∨ n = .tlbInvalid ∨ n = .tlbModified ∨ n = .busError ∨ n = .watch

/-- What a load or store does with memory: the kind, the width, the base register and the offset
(46_load_store.md R185). -/
def dataAccess : Instr → Option (AccessKind × Width × Reg × Imm)
  | .lb _ offset base => some (.load, .byte, base, offset)
  | .lbu _ offset base => some (.load, .byte, base, offset)
  | .lw _ offset base => some (.load, .word, base, offset)
  | .lwc1 _ offset base => some (.load, .word, base, offset)
  | .sb _ offset base => some (.store, .byte, base, offset)
  | .sw _ offset base => some (.store, .word, base, offset)
  | .swc1 _ offset base => some (.store, .word, base, offset)
  | _ => none

/-- The right-hand column of the matrix of 60_exceptions.md R236, beyond the fetch; the row of NEG.S widened by
FloatingPoint(UnimplementedOperation), which 41_floating_point.md R131 and 60_exceptions.md R231 give it and R236
does not list. -/
def mayRaise (i : Instr) (n : ExceptionName) : Prop :=
  (i.mnemonic ∈ ["ADD", "ADDI", "SUB"] ∧ n = .integerOverflow) ∨
  (i.mnemonic = "SYSCALL" ∧ n = .systemCall) ∨
  (i.mnemonic ∈ ["LB", "LBU", "LW", "LWC1"] ∧ isAccessName n ∧ n ≠ .tlbModified) ∨
  (i.mnemonic ∈ ["SB", "SW", "SWC1"] ∧ isAccessName n) ∨
  (i.mnemonic ∈ ["LWC1", "SWC1", "ADD.S", "SUB.S", "MUL.S", "DIV.S", "NEG.S", "MOV.S", "MFC1", "MTC1"] ∧
    n = .coprocessorUnusable) ∨
  (i.mnemonic ∈ ["ADD.S", "SUB.S", "MUL.S", "DIV.S"] ∧
    ∃ c, n = .floatingPoint c ∧ (c = .divisionByZero → i.mnemonic = "DIV.S")) ∨
  (i.mnemonic = "NEG.S" ∧
    (n = .floatingPoint .invalidOperation ∨ n = .floatingPoint .unimplementedOperation))

/-- The exact signed result of ADD, ADDI and SUB does not fit in 32 bits (60_exceptions.md R223). -/
def sumOverflows (i : Instr) (s : State) : Prop :=
  match i with
  | .add _ rs rt =>
    (s.x .first rs).toInt + (s.x .second rt).toInt < -2 ^ 31 ∨ 2 ^ 31 ≤ (s.x .first rs).toInt + (s.x .second rt).toInt
  | .addi _ rs imm =>
    (s.x .first rs).toInt + imm.toInt < -2 ^ 31 ∨ 2 ^ 31 ≤ (s.x .first rs).toInt + imm.toInt
  | .sub _ rs rt =>
    (s.x .first rs).toInt - (s.x .second rt).toInt < -2 ^ 31 ∨ 2 ^ 31 ≤ (s.x .first rs).toInt - (s.x .second rt).toInt
  | _ => False

/-! ## Which instructions write what (10_state.md R22, R29; 44_multiply_divide.md R170; 20_memory.md R41) -/

/-- The "write" rows of the table of R22. -/
def gprDest : Instr → Option Reg
  | .add rd _ _ | .addu rd _ _ | .sub rd _ _ | .subu rd _ _ | .and rd _ _ | .or rd _ _ => some rd
  | .xor rd _ _ | .nor rd _ _ | .slt rd _ _ | .sltu rd _ _ | .mul rd _ _ => some rd
  | .movn rd _ _ | .movz rd _ _ | .sll rd _ _ | .srl rd _ _ | .sra rd _ _ => some rd
  | .sllv rd _ _ | .srlv rd _ _ | .srav rd _ _ | .mfhi rd | .mflo rd | .jalr rd _ => some rd
  | .addi rt _ _ | .addiu rt _ _ | .slti rt _ _ | .sltiu rt _ _ | .andi rt _ _ => some rt
  | .ori rt _ _ | .xori rt _ _ | .lui rt _ | .lb rt _ _ | .lbu rt _ _ | .lw rt _ _ => some rt
  | .mfc1 rt _ => some rt
  | .jal _ => some 31#5
  | _ => none

/-- The "write" rows of the table of R29. -/
def fprDest : Instr → Option FReg
  | .addS fd _ _ | .subS fd _ _ | .mulS fd _ _ | .divS fd _ _ | .movS fd _ | .negS fd _ => some fd
  | .mtc1 _ fs => some fs
  | .lwc1 ft _ _ => some ft
  | _ => none

/-- "Nothing but MULT, MULTU, DIV, DIVU and MUL changes HI or LO" (R170). -/
def writesHiLo : Instr → Bool
  | .mult .. | .multu .. | .div .. | .divu .. | .mul .. => true
  | _ => false

/-- SB, SW and SWC1 (R41), with the number of bytes they store. -/
def storedBytes : Instr → Option (Nat × Reg × Imm)
  | .sb _ offset base => some (1, base, offset)
  | .sw _ offset base => some (4, base, offset)
  | .swc1 _ offset base => some (4, base, offset)
  | _ => none

/-! ## Bytes and words (20_memory.md R43, R50) -/

/-- The weight in a word of its byte at address plus `k`. -/
def byteWeight (e : Endian) (k : Nat) : Nat :=
  match e with
  | .big => 2 ^ (8 * (3 - k))
  | .little => 2 ^ (8 * k)

/-- The four bytes at `a` hold the word `v` in the order ENDIAN. -/
def HoldsWord (t : State) (a : Nat) (v : Word) : Prop :=
  ∀ k < 4, ∃ b, t.mem.read (a + k) = some b ∧ b.toNat = v.toNat / byteWeight t.params.endian k % 256

/-- `i` completes at `s` and stores at the `n` bytes from `a` on, and nowhere else; they enter WRITTEN, and no
register changes. -/
def StoresAt (i : Instr) (s : State) (a : Word) (n : Nat) (P : State → Prop) : Prop :=
  ∃ t, exec i s = .next t ∧ P t ∧
    (∀ c, c < a.toNat ∨ a.toNat + n ≤ c → t.mem.read c = s.mem.read c) ∧
    (∀ c, c ∈ t.written ↔ c ∈ s.written ∨ (a.toNat ≤ c ∧ c < a.toNat + n)) ∧
    SameGprs s t ∧ SameFprs s t ∧ SameHiLo s t ∧ t.params = s.params ∧ t.draws = s.draws + 1 ∧ AdvancesInOrder s t

/-! ## Control transfers (43_branch_jump.md) -/

/-- `i` completes at `s`, changes no register, and makes `npc` the address `target`, with `ds` true. -/
def TransfersTo (i : Instr) (s : State) (target : Word) : Prop :=
  ∃ t, exec i s = .next t ∧ NoResult s t ∧ t.draws = s.draws + 1 ∧
    t.pc = s.npc ∧ t.npc = target ∧ t.ds = true

/-- `i` does so and writes the return link, the address `pc + 8`, to GPR `rd`. -/
def LinksTo (i : Instr) (s : State) (rd : Reg) (target : Word) : Prop :=
  ∃ t link, exec i s = .next t ∧ GprResult rd (.holds link) s t ∧ link.toNat = (s.pc.toNat + 8) % 2 ^ 32 ∧
    t.draws = s.draws + 1 ∧ t.pc = s.npc ∧ t.npc = target ∧ t.ds = true

/-- `target = (pc + 4) + sext_32(offset || 00)`, modulo 2^32 (R151), in integers. -/
def IsBranchTarget (pc : Word) (offset : Imm) (target : Word) : Prop :=
  (target.toNat : Int) = ((pc.toNat : Int) + 4 + 4 * offset.toInt) % 2 ^ 32

/-- `target = (pc + 4)[31:28] || instr_index || 00` (R160), in integers. -/
def IsJumpTarget (pc : Word) (index : BitVec 26) (target : Word) : Prop :=
  target.toNat = (pc.toNat + 4) % 2 ^ 32 / 2 ^ 28 * 2 ^ 28 + index.toNat * 4

/-- A conditional branch with this condition. -/
def BranchesIf (i : Instr) (s : State) (offset : Imm) (taken : Prop) : Prop :=
  (taken → ∃ target, IsBranchTarget s.pc offset target ∧ TransfersTo i s target) ∧
    (¬ taken → TransfersTo i s (s.npc + 4#32))

/-! ## Floating point (41_floating_point.md) -/

/-- Zero, subnormal or normal: `e` is not 255 (R120). -/
def fpFinite (w : Word) : Prop := fpExponent w < 255

/-- `w` is the correct rounding of the exact value `x`, in units of 2^-149, when the rounded value is finite: RN
nearest, ties to even; RZ toward zero; RP toward plus infinity; RM toward minus infinity (R121). -/
def RoundsTo (mode : RoundingMode) (x : ℚ) (w : Word) : Prop :=
  fpFinite w ∧
  match mode with
  | .rn =>
    (∀ v, fpFinite v → |x - fpValue w| ≤ |x - fpValue v|) ∧
      (∀ v, fpFinite v → fpValue v ≠ fpValue w → |x - fpValue v| = |x - fpValue w| →
        w.getLsbD 0 = false)
  | .rz =>
    0 ≤ x * fpValue w ∧ |(fpValue w : ℚ)| ≤ |x| ∧
      (∀ v, fpFinite v → 0 ≤ x * fpValue v → |(fpValue v : ℚ)| ≤ |x| →
        |(fpValue v : ℚ)| ≤ |(fpValue w : ℚ)|)
  | .rp => x ≤ fpValue w ∧ ∀ v, fpFinite v → x ≤ fpValue v → fpValue w ≤ fpValue v
  | .rm => fpValue w ≤ x ∧ ∀ v, fpFinite v → (fpValue v : ℚ) ≤ x → fpValue v ≤ fpValue w

/-- The largest finite value, 0x7F7FFFFF, in units of 2^-149 (R120). -/
def largestFinite : ℚ := (2 ^ 24 - 1) * 2 ^ 253

/-- The exact value `x`, in units of 2^-149, rounds in this mode, with unbounded exponent, to more than
0x7F7FFFFF in magnitude (R122). The next value of the format would be `largestFinite + 2^253`. -/
def RoundOverflows (mode : RoundingMode) (x : ℚ) : Prop :=
  match mode with
  | .rn => largestFinite + 2 ^ 252 ≤ |x|
  | .rz => largestFinite + 2 ^ 253 ≤ |x|
  | .rp => largestFinite < x ∨ x ≤ -(largestFinite + 2 ^ 253)
  | .rm => x < -largestFinite ∨ largestFinite + 2 ^ 253 ≤ x

/-- "non-zero and smaller in magnitude than 2^-126" (R122, R125), in units of 2^-149. -/
def IsTiny (x : ℚ) : Prop := x ≠ 0 ∧ |x| < 2 ^ 23

/-- What is to be reported of a result `w` that rounds `x` and does not overflow. -/
def RoundFacts (a b : Word) (x : ℚ) (w : Word) (f : FpFacts) : Prop :=
  f.invalid = false ∧ f.divByZero = false ∧ f.overflow = false ∧
    (f.tiny = true ↔ IsTiny x) ∧ (f.inexact = true ↔ (fpValue w : ℚ) ≠ x) ∧
    (f.subnormalOperand = true ↔ isSubnormal a = true ∨ isSubnormal b = true)

/-- `r` is the correctly rounded `x`, with the sign that R121 gives. -/
def RoundedResult (mode : RoundingMode) (a b : Word) (x : ℚ) (zeroSign : Bool)
    (r : FpResult × FpFacts) : Prop :=
  ∃ w, r.1 = .bits w ∧ RoundsTo mode x w ∧ RoundFacts a b x w r.2 ∧
    (x = 0 → fpSign w = zeroSign) ∧ (x ≠ 0 → (fpSign w = true ↔ x < 0))

/-- The result of an overflow (R122): "by mode and sign". -/
def OverflowedResult (mode : RoundingMode) (x : ℚ) (r : FpResult × FpFacts) : Prop :=
  r.1 = .bits (match mode with
    | .rn => if x < 0 then 0xFF800000#32 else 0x7F800000#32
    | .rz => if x < 0 then 0xFF7FFFFF#32 else 0x7F7FFFFF#32
    | .rp => if x < 0 then 0xFF7FFFFF#32 else 0x7F800000#32
    | .rm => if x < 0 then 0xFF800000#32 else 0x7F7FFFFF#32) ∧
    r.2.overflow = true ∧ r.2.inexact = true ∧ r.2.invalid = false ∧ r.2.divByZero = false

/-- ADD.S, SUB.S, MUL.S and DIV.S. -/
inductive FpOp where
  | add
  | sub
  | mul
  | div
deriving DecidableEq, Repr

/-- The instruction of an operation. -/
def FpOp.instr (op : FpOp) (fd fs ft : FReg) : Instr :=
  match op with
  | .add => .addS fd fs ft
  | .sub => .subS fd fs ft
  | .mul => .mulS fd fs ft
  | .div => .divS fd fs ft

/-- The configuration function of an operation (R121). -/
def FpOp.run (op : FpOp) (mode : RoundingMode) (a b : Word) : FpResult × FpFacts :=
  match op with
  | .add => fpAddS mode a b
  | .sub => fpSubS mode a b
  | .mul => fpMulS mode a b
  | .div => fpDivS mode a b

/-- The exact result on finite operands (for a quotient, a non-zero divisor), in units of 2^-149. -/
def FpOp.exact (op : FpOp) (a b : Word) : ℚ :=
  match op with
  | .add => fpValue a + fpValue b
  | .sub => fpValue a - fpValue b
  | .mul => fpValue a * fpValue b / 2 ^ 149
  | .div => fpValue a * 2 ^ 149 / fpValue b

/-- The operands on which the exact result is a finite number. -/
def FpOp.finiteOn (op : FpOp) (a b : Word) : Prop :=
  fpFinite a ∧ fpFinite b ∧ (op = .div → fpValue b ≠ 0)

/-- The invalid operations on operands that are no NaN (R122). -/
def FpOp.invalidOn (op : FpOp) (a b : Word) : Prop :=
  match op with
  | .add => isInf a = true ∧ isInf b = true ∧ fpSign a ≠ fpSign b
  | .sub => isInf a = true ∧ isInf b = true ∧ fpSign a = fpSign b
  | .mul => (isZero a = true ∧ isInf b = true) ∨ (isInf a = true ∧ isZero b = true)
  | .div => (isZero a = true ∧ isZero b = true) ∨ (isInf a = true ∧ isInf b = true)

/-- A condition arises (R122, R125). -/
def Arises (p : Params) (f : FpFacts) : FpCause → Prop
  | .unimplementedOperation =>
    p.fpSubnormal = .unimplemented ∧ (f.subnormalOperand = true ∨ f.tiny = true)
  | .invalidOperation => f.invalid = true
  | .divisionByZero => f.divByZero = true
  | .overflow => f.overflow = true
  | .underflow =>
    p.fpSubnormal = .ieee ∧ f.tiny = true ∧ (f.inexact = true ∨ p.fpEnables.underflow = true)
  | .inexact => f.inexact = true

/-- A condition that arises raises: UnimplementedOperation always, the others when they are in FP_ENABLES. -/
def Enabled (p : Params) : FpCause → Prop
  | .unimplementedOperation => True
  | .invalidOperation => p.fpEnables.invalid = true
  | .divisionByZero => p.fpEnables.divByZero = true
  | .overflow => p.fpEnables.overflow = true
  | .underflow => p.fpEnables.underflow = true
  | .inexact => p.fpEnables.inexact = true

/-- The place of a cause in the order of FPFinish (R122). -/
def causeRank : FpCause → Nat
  | .unimplementedOperation => 0
  | .invalidOperation => 1
  | .divisionByZero => 2
  | .overflow => 3
  | .underflow => 4
  | .inexact => 5

/-- `i` completes at `s` and leaves some NaN in FPR `fd`. -/
def WritesSomeNaN (i : Instr) (s : State) (fd : FReg) : Prop := LeavesInFpr i s fd .someNaN

end Sys2Proof.Statements

open Sys2Proof Sys2Proof.Machine Sys2Proof.Statements

/-! ## Encoding -/

/-- Decoding the word of any instruction gives the instruction back, for every value of every operand
(30_encoding.md R70, R78, R80). -/
def Obligations.DecodeOfEncode : Prop := ∀ i : Instr, decode (encode i) = .ok i

/-- A word that decodes is the word of its instruction: no bit of it is dropped or ignored, and every
must-be-zero field is zero (30_encoding.md R70, R75, R80). -/
def Obligations.EncodeOfDecode : Prop := ∀ (w : Word) (i : Instr), decode w = .ok i → encode i = w

/-- Decode selects the unique row of the opcode table with `(w AND mask) = match`, and nothing where there is
none (30_encoding.md R70, R80). -/
def Obligations.DecodeIsTheOpcodeTable : Prop :=
  (∀ (w : Word) (i : Instr), decode w = .ok i →
    ∃ r ∈ opcodeTable, r.mnemonic = i.mnemonic ∧ w &&& r.mask = r.pattern) ∧
  (∀ (w : Word), ∀ r ∈ opcodeTable, w &&& r.mask = r.pattern →
    ∃ i, decode w = .ok i ∧ i.mnemonic = r.mnemonic) ∧
  (∀ (w : Word), ∀ r₁ ∈ opcodeTable, ∀ r₂ ∈ opcodeTable,
    w &&& r₁.mask = r₁.pattern → w &&& r₂.mask = r₂.pattern → r₁ = r₂)

/-- Executing a word that matches no row raises ReservedInstruction with that word in the record, whatever the
mode of the machine; nothing else does; and every word of opcode 010000, ERET, DERET and WAIT among them,
matches no row (30_encoding.md R76, 60_exceptions.md R228). -/
def Obligations.ReservedWordsRaise : Prop :=
  (∀ (s : State) (w : Word), fetchWord s = .ok w →
    (∀ r ∈ opcodeTable, w &&& r.mask ≠ r.pattern) →
    step s = .fault (.exception
      { name := .reservedInstruction, pc := s.pc, ds := s.ds,
        restart := if s.ds then s.pc - 4#32 else s.pc, word := some w, kind := none,
        badaddr := none, cop := none })) ∧
  (∀ (s : State) (rec : ExceptionRecord), step s = .fault (.exception rec) →
    rec.name = .reservedInstruction →
    ∃ w, fetchWord s = .ok w ∧ ∀ r ∈ opcodeTable, w &&& r.mask ≠ r.pattern) ∧
  (∀ w : Word, opcodeOf w = 0b010000#6 → ∀ r ∈ opcodeTable, w &&& r.mask ≠ r.pattern)

/-- Words written out from 30_encoding.md R80, one for each family, decode to the instruction they stand for. -/
def Obligations.SampleWordsDecode : Prop :=
  decode 0b000000_00001_00010_00011_00000_100000#32 = .ok (.add 3 1 2) ∧
  decode 0b001010_00001_00010_1111111111111111#32 = .ok (.slti 2 1 0xFFFF) ∧
  decode 0b010001_10000_00001_00000_00010_000011#32 = .ok (.divS 2 0 1) ∧
  decode 0b010001_00100_01000_00010_00000000000#32 = .ok (.mtc1 8 2) ∧
  decode 0b001111_00000_00010_1000000000000000#32 = .ok (.lui 2 0x8000) ∧
  decode 0b000001_00001_00001_0000000000000010#32 = .ok (.bgez 1 2) ∧
  decode 0b000011_00000100000000000001000000#32 = .ok (.jal 0x0100040) ∧
  decode 0b000000_00100_00000_00101_00000_001001#32 = .ok (.jalr 5 4) ∧
  decode 0b011100_00001_00010_00011_00000_000010#32 = .ok (.mul 3 1 2) ∧
  decode 0b100011_00001_00010_1111111111111100#32 = .ok (.lw 2 0xFFFC 1) ∧
  decode 0b111001_00001_00010_0000000000000100#32 = .ok (.swc1 2 4 1) ∧
  decode 0b000000_00001_00010_00011_00000_001010#32 = .ok (.movz 3 1 2) ∧
  decode 0b000000_00000_00010_00011_00100_000011#32 = .ok (.sra 3 2 4) ∧
  decode 0b000000_00001_00010_00011_00000_000111#32 = .ok (.srav 3 2 1) ∧
  decode 0b000000_00000100100011010001_001100#32 = .ok (.syscall 0x048D1)

/-! ## The step and the fetch -/

/-- When the four bytes at an aligned, admitted and never stored-to `pc`, put together in the order ENDIAN, decode
to an instruction, the step is that instruction at that state and nothing else (10_state.md R26). -/
def Obligations.StepRunsDecodedInstruction : Prop :=
  ∀ (s : State) (b0 b1 b2 b3 : Byte) (i : Instr),
    wordAligned s.pc = true → memCheck s s.pc .word .fetch = none →
    (∀ a ∈ s.written, a < s.pc.toNat ∨ s.pc.toNat + 4 ≤ a) →
    s.mem.read s.pc.toNat = some b0 → s.mem.read (s.pc.toNat + 1) = some b1 →
    s.mem.read (s.pc.toNat + 2) = some b2 → s.mem.read (s.pc.toNat + 3) = some b3 →
    decode (match s.params.endian with
      | .big => b0 ++ b1 ++ b2 ++ b3
      | .little => b3 ++ b2 ++ b1 ++ b0) = .ok i →
    step s = exec i s

/-- What a fetch meets, in order: a misaligned `pc`; MemCheck's answer; a location stored to; a byte nothing has
specified (20_memory.md R48, R51, R56; 60_exceptions.md R237). -/
def Obligations.FetchStopsInOrder : Prop :=
  ∀ s : State,
    (s.pc.toNat % 4 ≠ 0 →
      step s = .fault (.exception
        { name := .addressError, pc := s.pc, ds := s.ds,
          restart := if s.ds then s.pc - 4#32 else s.pc, word := none, kind := some .fetch,
          badaddr := some s.pc, cop := none })) ∧
    (s.pc.toNat % 4 = 0 → ∀ name, memCheck s s.pc .word .fetch = some name →
      step s = .fault (.exception
        { name := name, pc := s.pc, ds := s.ds,
          restart := if s.ds then s.pc - 4#32 else s.pc, word := none, kind := some .fetch,
          badaddr := some s.pc, cop := none })) ∧
    (s.pc.toNat % 4 = 0 → memCheck s s.pc .word .fetch = none →
      (∃ k < 4, s.pc.toNat + k ∈ s.written) → step s = .fault .fetchOfWrittenLocation) ∧
    (s.pc.toNat % 4 = 0 → memCheck s s.pc .word .fetch = none →
      (∀ k < 4, s.pc.toNat + k ∉ s.written) → (∃ k < 4, s.mem.read (s.pc.toNat + k) = none) →
      step s = .fault .fetchOfUnspecifiedByte)

/-- The answers of MemCheck: one of six exception names, TLBModified for a store only; the same for two states
with the same parameters; and any such function is the MemCheck of some launch (20_memory.md R42). -/
def Obligations.MemCheckAnswers : Prop :=
  (∀ (s : State) (a : Word) (w : Width) (k : AccessKind) (n : ExceptionName),
    memCheck s a w k = some n → isAccessName n ∧ (n = .tlbModified → k = .store)) ∧
  (∀ (s t : State) (a : Word) (w : Width) (k : AccessKind), s.params = t.params →
    memCheck s a w k = memCheck t a w k) ∧
  (∀ check : Word → Width → AccessKind → Option ExceptionName,
    (∀ a w k n, check a w k = some n → isAccessName n ∧ (n = .tlbModified → k = .store)) →
    ∃ p : MemCheck, ∀ s : State, s.params.memCheck = p →
      ∀ a w k, memCheck s a w k = check a w k)

/-! ## Exceptions and faults -/

/-- The record of every exception a step raises is that of R238, field by field (60_exceptions.md R238, R222). -/
def Obligations.ExceptionRecordIsExact : Prop :=
  ∀ (s : State) (rec : ExceptionRecord), step s = .fault (.exception rec) →
    rec.pc = s.pc ∧ rec.ds = s.ds ∧
    (s.ds = false → rec.restart = s.pc) ∧ (s.ds = true → rec.restart = s.pc - 4#32) ∧
    (∀ w, rec.word = some w ↔ fetchWord s = .ok w) ∧
    (isAccessName rec.name →
      (rec.word = none ∧ rec.kind = some .fetch ∧ rec.badaddr = some s.pc) ∨
      ∃ i kind width base offset, fetchInstr s = .ok i ∧
        dataAccess i = some (kind, width, base, offset) ∧ rec.kind = some kind ∧
        rec.badaddr = some (effectiveAddress (s.x .first base) offset)) ∧
    (¬ isAccessName rec.name → rec.kind = none ∧ rec.badaddr = none) ∧
    rec.cop = if rec.name = .coprocessorUnusable then some 1 else none

/-- An instruction raises only what the matrix of R236 allows it, or, for NEG.S, the UnimplementedOperation that
R131 and R231 add to its row (60_exceptions.md R231, R236; 41_floating_point.md R131). -/
def Obligations.OnlyTheMatrixRaises : Prop :=
  ∀ (i : Instr) (s : State) (rec : ExceptionRecord),
    exec i s = .fault (.exception rec) → mayRaise i rec.name

/-- IntegerOverflow is raised by ADD, ADDI and SUB, exactly when the exact signed result does not fit, and by no
other instruction; its record has the common fields only (60_exceptions.md R223). -/
def Obligations.IntegerOverflowExactly : Prop :=
  ∀ (i : Instr) (s : State),
    (sumOverflows i s → Raises i s .integerOverflow) ∧
    (∀ rec, exec i s = .fault (.exception rec) → rec.name = .integerOverflow → sumOverflows i s)

/-- When CP1_USABLE is false, each of the ten CP1 instructions raises CoprocessorUnusable(1) whatever its operands
and addresses are; when it is true none does; no other instruction ever does (60_exceptions.md R229). -/
def Obligations.CoprocessorUnusableExactly : Prop :=
  (∀ i : Instr, i.isCp1 = true ↔
    i.mnemonic ∈ ["ADD.S", "SUB.S", "MUL.S", "DIV.S", "MOV.S", "NEG.S", "MFC1", "MTC1", "LWC1", "SWC1"]) ∧
  (∀ (i : Instr) (s : State), i.isCp1 = true → s.params.cp1Usable = false →
    RaisesUnusable i s) ∧
  (∀ (i : Instr) (s : State) (rec : ExceptionRecord), exec i s = .fault (.exception rec) →
    rec.name = .coprocessorUnusable → i.isCp1 = true ∧ s.params.cp1Usable = false)

/-- SYSCALL raises SystemCall always, with every code, in a delay slot or not; its record's word holds the code in
bits 25:6; and no other instruction raises SystemCall (49_system.md R216, 60_exceptions.md R224). -/
def Obligations.SyscallAlwaysStops : Prop :=
  (∀ (code : BitVec 20) (s : State), Raises (.syscall code) s .systemCall) ∧
  (∀ code : BitVec 20, (encode (.syscall code)).toNat / 2 ^ 6 % 2 ^ 20 = code.toNat) ∧
  (∀ (i : Instr) (s : State) (rec : ExceptionRecord), exec i s = .fault (.exception rec) →
    rec.name = .systemCall → ∃ code, i = .syscall code)

/-- A step faults without an exception in exactly four situations (60_exceptions.md R232): a control transfer in a
delay slot, JALR with rs = rd, a fetch from a location stored to, a fetch of a word with an unspecified
byte; and no step is refused (70_reset_and_hazards.md R272). -/
def Obligations.ModelFaultsExactly : Prop :=
  ∀ s : State,
    (step s = .fault .controlTransferInDelaySlot ↔
      ∃ i, fetchInstr s = .ok i ∧ i.isControlTransfer = true ∧ s.ds = true) ∧
    (step s = .fault .jalrSameRegister ↔ s.ds = false ∧ ∃ r, fetchInstr s = .ok (.jalr r r)) ∧
    (step s = .fault .fetchOfWrittenLocation ↔
      s.pc.toNat % 4 = 0 ∧ memCheck s s.pc .word .fetch = none ∧
        ∃ k < 4, s.pc.toNat + k ∈ s.written) ∧
    (step s = .fault .fetchOfUnspecifiedByte ↔
      s.pc.toNat % 4 = 0 ∧ memCheck s s.pc .word .fetch = none ∧
        (∀ k < 4, s.pc.toNat + k ∉ s.written) ∧ ∃ k < 4, s.mem.read (s.pc.toNat + k) = none) ∧
    ∀ r, step s ≠ .refused r

/-! ## Invariants and whole-machine rules -/

/-- Every step keeps the invariant of Safety.lean. -/
def Obligations.StepKeepsInvariant : Prop := ∀ s t : State, MachineInv s → step s = .next t → MachineInv t

/-- A launch meets it, whatever its parameters, its registers and its image: GPR 0 is 0, the other registers hold what
the launch gives them, `pc` is ENTRY_PC, `npc` is ENTRY_PC + 4, `ds` is false, memory is the image, WRITTEN is empty,
and the parameters are the launch's (10_state.md R34, 70_reset_and_hazards.md R260, R261); and so does the reset
state. -/
def Obligations.LaunchMeetsInvariant : Prop :=
  (∀ (p : Params) (r : Registers) (image : Memory), image.wf →
    MachineInv (State.launch p r image) ∧ (State.launch p r image).gprAt 0#5 = .holds 0#32 ∧
      (∀ q : Reg, q ≠ 0#5 → (State.launch p r image).gprAt q = r.gpr[q.toNat]'q.isLt) ∧
      (State.launch p r image).hi = r.hi ∧ (State.launch p r image).lo = r.lo ∧
      (State.launch p r image).fpr = r.fpr ∧
      (State.launch p r image).pc = p.entryPc ∧ (State.launch p r image).npc = p.entryPc + 4#32 ∧
      (State.launch p r image).ds = false ∧ (State.launch p r image).mem = image ∧
      (State.launch p r image).written = [] ∧ (State.launch p r image).params = p) ∧
  MachineInv State.reset

/-- Over any number of steps, the parameters hold their values, WRITTEN only grows, and a byte outside it reads as it
did at the start (70_reset_and_hazards.md R260; 20_memory.md R50, R54). -/
def Obligations.WholeRunFrame : Prop :=
  ∀ (n : Nat) (s t : State), RunsTo n s t →
    t.params = s.params ∧ (∀ a ∈ s.written, a ∈ t.written) ∧
    (∀ a, a ∉ t.written → t.mem.read a = s.mem.read a)

/-- However long a run, every word it fetches is the launch image's word at that address (20_memory.md R51, R56):
no code is executed that the run has stored. -/
def Obligations.FetchedCodeIsTheLaunchImage : Prop :=
  ∀ (p : Params) (r : Registers) (image : Memory) (n : Nat) (t : State) (w : Word),
    RunsTo n (State.launch p r image) t → fetchWord t = .ok w →
    image.word? p.endian t.pc = some w

/-- A completed instruction changes memory and WRITTEN only at the bytes it stores to: one byte for SB, four for SW
and SWC1, at its effective address, and none for any other instruction (20_memory.md R41, R50). -/
def Obligations.OnlyStoresChangeMemory : Prop :=
  ∀ (i : Instr) (s t : State), exec i s = .next t →
    (storedBytes i = none → SameMemory s t) ∧
    (∀ n base offset, storedBytes i = some (n, base, offset) →
      ∀ c, c < (effectiveAddress (s.x .first base) offset).toNat ∨
          (effectiveAddress (s.x .first base) offset).toNat + n ≤ c →
        t.mem.read c = s.mem.read c ∧ (c ∈ t.written ↔ c ∈ s.written))

/-- Which instruction may change which GPR is the table of 10_state.md R22; GPR 0 reads 0 in every state, and a
write to it changes nothing (R21). -/
def Obligations.GprWriters : Prop :=
  (∀ (i : Instr) (s t : State) (r : Reg), exec i s = .next t → t.gprAt r ≠ s.gprAt r →
    gprDest i = some r ∧ r ≠ 0#5) ∧
  (∀ s : State, s.gprAt 0#5 = .holds 0#32) ∧ (∀ (s : State) (k : Operand), s.x k 0#5 = 0#32) ∧
  (∀ (s : State) (c : Contents), s.setGpr 0#5 c = s)

/-- Which instruction may change which FPR is the table of 10_state.md R29; "Nothing but MULT, MULTU, DIV, DIVU and MUL
changes HI or LO" (44_multiply_divide.md R170). -/
def Obligations.FprAndHiLoWriters : Prop :=
  ∀ (i : Instr) (s t : State), exec i s = .next t →
    (∀ r, t.fprAt r ≠ s.fprAt r → fprDest i = some r) ∧
    (t.hi ≠ s.hi ∨ t.lo ≠ s.lo → writesHiLo i = true)

/-- Every instruction but the ten control transfers advances in sequence; the ten go to `npc` with `ds` true
(00_scope.md R15; 10_state.md R26, R27). -/
def Obligations.ControlFlowOfEveryStep : Prop :=
  ∀ (i : Instr) (s t : State), exec i s = .next t →
    t.pc = s.npc ∧ (t.ds = true ↔ i.isControlTransfer = true) ∧
    (i.isControlTransfer = false → t.npc = s.npc + 4#32)

/-- The delay slot: after a branch or jump the instruction at `pc + 4` runs next, whatever the decision was; if it
completes, control is at the target, fixed when the branch executed; if it raises, the record says `ds` and
restarts at the branch (43_branch_jump.md R150, R165). -/
def Obligations.DelaySlotThenTarget : Prop :=
  ∀ (i : Instr) (s t : State), s.npc = s.pc + 4#32 → i.isControlTransfer = true →
    exec i s = .next t →
    t.pc = s.pc + 4#32 ∧
    (∀ u, step t = .next u → u.pc = t.npc ∧ u.npc = t.npc + 4#32 ∧ u.ds = false) ∧
    (∀ rec, step t = .fault (.exception rec) →
      rec.ds = true ∧ rec.pc = s.pc + 4#32 ∧ rec.restart = s.pc)

/-- A jump through a register that holds a misaligned address completes, its delay-slot instruction executes, and
the fetch at the target raises AddressError; branch and jump targets are aligned whenever `pc` is
(20_memory.md R48). -/
def Obligations.MisalignedTargetRaisesAtFetch : Prop :=
  (∀ (i : Instr) (s : State) (rd rs : Reg), (i = .jr rs ∨ (i = .jalr rd rs ∧ rs ≠ rd)) →
    s.ds = false → (s.x .first rs).toNat % 4 ≠ 0 →
    ∃ t, exec i s = .next t ∧ t.npc = s.x .first rs ∧
      ∀ j u, exec j t = .next u →
        step u = .fault (.exception
          { name := .addressError, pc := s.x .first rs, ds := false, restart := s.x .first rs, word := none,
            kind := some .fetch, badaddr := some (s.x .first rs), cop := none })) ∧
  (∀ (pc : Word) (offset : Imm) (index : BitVec 26), pc.toNat % 4 = 0 →
    (branchTarget pc offset).toNat % 4 = 0 ∧ (jumpTarget pc index).toNat % 4 = 0)

/-! ## Integer instructions -/

/-- ADD, ADDI and SUB write the exact signed result where it fits in 32 bits (40_integer_arithmetic.md R101, R102,
R105), and raise IntegerOverflow where it does not. -/
def Obligations.AddAndSubExactOrTrap : Prop :=
  ∀ (s : State) (rd rs rt : Reg) (imm : Imm),
    (¬ sumOverflows (.add rd rs rt) s →
      ∃ v, WritesGpr (.add rd rs rt) s rd v ∧ v.toInt = (s.x .first rs).toInt + (s.x .second rt).toInt) ∧
    (sumOverflows (.add rd rs rt) s → Raises (.add rd rs rt) s .integerOverflow) ∧
    (¬ sumOverflows (.addi rt rs imm) s →
      ∃ v, WritesGpr (.addi rt rs imm) s rt v ∧ v.toInt = (s.x .first rs).toInt + imm.toInt) ∧
    (sumOverflows (.addi rt rs imm) s → Raises (.addi rt rs imm) s .integerOverflow) ∧
    (¬ sumOverflows (.sub rd rs rt) s →
      ∃ v, WritesGpr (.sub rd rs rt) s rd v ∧ v.toInt = (s.x .first rs).toInt - (s.x .second rt).toInt) ∧
    (sumOverflows (.sub rd rs rt) s → Raises (.sub rd rs rt) s .integerOverflow)

/-- ADDU, ADDIU and SUBU write the exact sum or difference modulo 2^32, the immediate signed, and never raise
(40_integer_arithmetic.md R103, R104, R106). -/
def Obligations.AddAndSubModulo : Prop :=
  ∀ (s : State) (rd rs rt : Reg) (imm : Imm),
    (∃ v, WritesGpr (.addu rd rs rt) s rd v ∧
      (v.toNat : Int) = ((s.x .first rs).toNat + (s.x .second rt).toNat : Int) % 2 ^ 32) ∧
    (∃ v, WritesGpr (.addiu rt rs imm) s rt v ∧
      (v.toNat : Int) = ((s.x .first rs).toNat + imm.toInt : Int) % 2 ^ 32) ∧
    (∃ v, WritesGpr (.subu rd rs rt) s rd v ∧
      (v.toNat : Int) = ((s.x .first rs).toNat - (s.x .second rt).toNat : Int) % 2 ^ 32)

/-- SLT, SLTI, SLTU and SLTIU write 1 or 0 by comparing exact values: signed, or unsigned with the immediate
sign-extended first, so an immediate field under 0x8000 stands for itself and any other for itself plus
0xFFFF0000 (40_integer_arithmetic.md R107 to R110). -/
def Obligations.Comparisons : Prop :=
  ∀ (s : State) (rd rs rt : Reg) (imm : Imm),
    WritesGpr (.slt rd rs rt) s rd (if (s.x .first rs).toInt < (s.x .second rt).toInt then 1#32 else 0#32) ∧
    WritesGpr (.slti rt rs imm) s rt (if (s.x .first rs).toInt < imm.toInt then 1#32 else 0#32) ∧
    WritesGpr (.sltu rd rs rt) s rd (if (s.x .first rs).toNat < (s.x .second rt).toNat then 1#32 else 0#32) ∧
    WritesGpr (.sltiu rt rs imm) s rt
      (if (s.x .first rs).toNat < (if imm.toNat < 2 ^ 15 then imm.toNat else imm.toNat + 0xFFFF0000) then 1#32
        else 0#32)

/-- AND, OR, XOR, NOR and their immediate forms, bit by bit, the immediate extended with zeros; LUI's result has
the immediate in its upper half and zeros below (42_logical.md R140 to R148). -/
def Obligations.LogicBitByBit : Prop :=
  ∀ (s : State) (rd rs rt : Reg) (imm : Imm),
    (∃ v, WritesGpr (.and rd rs rt) s rd v ∧
      ∀ k < 32, v.getLsbD k = ((s.x .first rs).getLsbD k && (s.x .second rt).getLsbD k)) ∧
    (∃ v, WritesGpr (.or rd rs rt) s rd v ∧
      ∀ k < 32, v.getLsbD k = ((s.x .first rs).getLsbD k || (s.x .second rt).getLsbD k)) ∧
    (∃ v, WritesGpr (.xor rd rs rt) s rd v ∧
      ∀ k < 32, v.getLsbD k = ((s.x .first rs).getLsbD k != (s.x .second rt).getLsbD k)) ∧
    (∃ v, WritesGpr (.nor rd rs rt) s rd v ∧
      ∀ k < 32, v.getLsbD k = !((s.x .first rs).getLsbD k || (s.x .second rt).getLsbD k)) ∧
    (∃ v, WritesGpr (.andi rt rs imm) s rt v ∧
      ∀ k < 32, v.getLsbD k = (decide (k < 16) && (s.x .first rs).getLsbD k && imm.getLsbD k)) ∧
    (∃ v, WritesGpr (.ori rt rs imm) s rt v ∧
      ∀ k < 32, v.getLsbD k = ((s.x .first rs).getLsbD k || (decide (k < 16) && imm.getLsbD k))) ∧
    (∃ v, WritesGpr (.xori rt rs imm) s rt v ∧
      ∀ k < 32, v.getLsbD k = ((s.x .first rs).getLsbD k != (decide (k < 16) && imm.getLsbD k))) ∧
    (∃ v, WritesGpr (.lui rt imm) s rt v ∧ v.toNat = imm.toNat * 2 ^ 16)

/-- The shifts are arithmetic on exact values: times 2^n modulo 2^32, and the floor of the unsigned or signed value
over 2^n; the amount is sa, or the low five bits of x[rs] (48_shift.md R205 to R211). -/
def Obligations.ShiftsAreArithmetic : Prop :=
  ∀ (s : State) (rd rs rt : Reg) (sa : BitVec 5),
    (∃ v, WritesGpr (.sll rd rt sa) s rd v ∧ v.toNat = (s.x .second rt).toNat * 2 ^ sa.toNat % 2 ^ 32) ∧
    (∃ v, WritesGpr (.srl rd rt sa) s rd v ∧ v.toNat = (s.x .second rt).toNat / 2 ^ sa.toNat) ∧
    (∃ v, WritesGpr (.sra rd rt sa) s rd v ∧ v.toInt = (s.x .second rt).toInt / 2 ^ sa.toNat) ∧
    (∃ v, WritesGpr (.sllv rd rt rs) s rd v ∧
      v.toNat = (s.x .second rt).toNat * 2 ^ ((s.x .first rs).toNat % 32) % 2 ^ 32) ∧
    (∃ v, WritesGpr (.srlv rd rt rs) s rd v ∧
      v.toNat = (s.x .second rt).toNat / 2 ^ ((s.x .first rs).toNat % 32)) ∧
    (∃ v, WritesGpr (.srav rd rt rs) s rd v ∧
      v.toInt = (s.x .second rt).toInt / 2 ^ ((s.x .first rs).toNat % 32))

/-- MOVN and MOVZ test rt and copy rs, whatever it holds, and else change nothing but the program counter: for the same
operands exactly one of them moves (47_conditional_move.md R200 to R202). That a copy of an unspecified register is
unspecified is the model's reading (log entry 25). -/
def Obligations.ConditionalMoves : Prop :=
  ∀ (s : State) (rd rs rt : Reg),
    (s.x .second rt ≠ 0#32 → LeavesInGpr (.movn rd rs rt) s rd (s.gprAt rs) ∧
      LeavesInGpr (.movz rd rs rt) s rd (s.gprAt rd)) ∧
    (s.x .second rt = 0#32 → LeavesInGpr (.movz rd rs rt) s rd (s.gprAt rs) ∧
      LeavesInGpr (.movn rd rs rt) s rd (s.gprAt rd))

/-! ## Multiply and divide -/

/-- MULT and MULTU leave the exact 64-bit product in HI and LO, signed or unsigned (44_multiply_divide.md R171,
R172). -/
def Obligations.ProductsAreExact : Prop :=
  ∀ (s : State) (rs rt : Reg),
    (∃ hi lo : Word, WritesHiLo (.mult rs rt) s (.holds hi) (.holds lo) ∧
      hi.toInt * 2 ^ 32 + lo.toNat = (s.x .first rs).toInt * (s.x .second rt).toInt) ∧
    (∃ hi lo : Word, WritesHiLo (.multu rs rt) s (.holds hi) (.holds lo) ∧
      hi.toNat * 2 ^ 32 + lo.toNat = (s.x .first rs).toNat * (s.x .second rt).toNat)

/-- MUL writes the low 32 bits of the product to rd and leaves HI and LO unspecified, even when rd = 0
(44_multiply_divide.md R173). -/
def Obligations.MulWritesLowWord : Prop :=
  ∀ (s : State) (rd rs rt : Reg), ∃ t v, exec (.mul rd rs rt) s = .next t ∧
    (v.toNat : Int) = (s.x .first rs).toInt * (s.x .second rt).toInt % 2 ^ 32 ∧
    t.gprAt rd = (if rd = 0#5 then .holds 0#32 else .holds v) ∧ GprsBut rd s t ∧
    t.hi = .unspecified ∧ t.lo = .unspecified ∧ SameFprs s t ∧ SameMemory s t ∧
    t.params = s.params ∧ t.draws = s.draws + 1 ∧ AdvancesInOrder s t

/-- DIV: quotient and remainder by the division law, rounded toward zero; with a zero divisor, and for -2^31 by
-1, HI and LO are unspecified and the run goes on (44_multiply_divide.md R174, R175). -/
def Obligations.SignedDivisionLaw : Prop :=
  ∀ (s : State) (rs rt : Reg),
    ((s.x .second rt).toInt ≠ 0 → ¬ ((s.x .first rs).toInt = -2 ^ 31 ∧ (s.x .second rt).toInt = -1) →
      ∃ hi lo : Word, WritesHiLo (.div rs rt) s (.holds hi) (.holds lo) ∧
        (s.x .first rs).toInt = lo.toInt * (s.x .second rt).toInt + hi.toInt ∧
        |hi.toInt| < |(s.x .second rt).toInt| ∧
        (hi.toInt = 0 ∨ (0 < hi.toInt ↔ 0 < (s.x .first rs).toInt))) ∧
    ((s.x .second rt).toInt = 0 ∨ ((s.x .first rs).toInt = -2 ^ 31 ∧ (s.x .second rt).toInt = -1) →
      WritesHiLo (.div rs rt) s .unspecified .unspecified)

/-- DIVU: the floor of the quotient in LO and the remainder in HI; with a zero divisor both are unspecified and the
run goes on (44_multiply_divide.md R176). -/
def Obligations.UnsignedDivisionLaw : Prop :=
  ∀ (s : State) (rs rt : Reg),
    ((s.x .second rt).toNat ≠ 0 →
      ∃ hi lo : Word, WritesHiLo (.divu rs rt) s (.holds hi) (.holds lo) ∧
        (s.x .first rs).toNat = lo.toNat * (s.x .second rt).toNat + hi.toNat ∧ hi.toNat < (s.x .second rt).toNat) ∧
    ((s.x .second rt).toNat = 0 → WritesHiLo (.divu rs rt) s .unspecified .unspecified)

/-- MFHI and MFLO copy HI and LO, which the read does not change (44_multiply_divide.md R177, R178). Where the
register is unspecified they complete all the same and leave rd unspecified (10_state.md R35 in the draw treatment,
the model's choice, log entry 7; 95_test_vectors.md V111). -/
def Obligations.MoveFromHiAndLo : Prop :=
  ∀ (s : State) (rd : Reg),
    (∀ v, s.hi = .holds v → WritesGpr (.mfhi rd) s rd v) ∧
    (∀ v, s.lo = .holds v → WritesGpr (.mflo rd) s rd v) ∧
    (s.hi = .unspecified → LeavesInGpr (.mfhi rd) s rd .unspecified) ∧
    (s.lo = .unspecified → LeavesInGpr (.mflo rd) s rd .unspecified)

/-! ## Loads and stores -/

/-- An effective address is the base plus the signed offset, unscaled, modulo 2^32 (20_memory.md R45,
46_load_store.md R185, R194). -/
def Obligations.EffectiveAddressIsTheSum : Prop :=
  ∀ (base : Word) (offset : Imm),
    ((effectiveAddress base offset).toNat : Int) = ((base.toNat : Int) + offset.toInt) % 2 ^ 32

/-- LB and LBU, at an address MemCheck admits: the byte at the effective address, sign-extended or zero-extended
(46_load_store.md R187, R188); where that byte is unspecified the load completes all the same and leaves rt unspecified
(10_state.md R35 in the draw treatment, the model's choice, log entry 8; 93_implementation_defined.md U18). -/
def Obligations.ByteLoads : Prop :=
  ∀ (s : State) (rt base : Reg) (offset : Imm),
    memCheck s (effectiveAddress (s.x .first base) offset) .byte .load = none →
    (∀ b, s.mem.read (effectiveAddress (s.x .first base) offset).toNat = some b →
      (∃ v, WritesGpr (.lb rt offset base) s rt v ∧ v.toInt = b.toInt) ∧
      (∃ v, WritesGpr (.lbu rt offset base) s rt v ∧ v.toNat = b.toNat)) ∧
    (s.mem.read (effectiveAddress (s.x .first base) offset).toNat = none →
      LeavesInGpr (.lb rt offset base) s rt .unspecified ∧
      LeavesInGpr (.lbu rt offset base) s rt .unspecified)

/-- LW and LWC1, at an aligned address MemCheck admits (LWC1 with CP1_USABLE true): the word at the effective
address in the order ENDIAN (46_load_store.md R189, R192); where a byte of it is unspecified the load completes all the
same and leaves its register unspecified (10_state.md R35 in the draw treatment, the model's choice, log entry 8;
93_implementation_defined.md U18). -/
def Obligations.WordLoads : Prop :=
  ∀ (s : State) (rt base : Reg) (ft : FReg) (offset : Imm),
    (effectiveAddress (s.x .first base) offset).toNat % 4 = 0 →
    memCheck s (effectiveAddress (s.x .first base) offset) .word .load = none →
    (∀ v, HoldsWord s (effectiveAddress (s.x .first base) offset).toNat v →
      WritesGpr (.lw rt offset base) s rt v ∧
      (s.params.cp1Usable = true → WritesFpr (.lwc1 ft offset base) s ft v)) ∧
    ((∃ k < 4, s.mem.read ((effectiveAddress (s.x .first base) offset).toNat + k) = none) →
      LeavesInGpr (.lw rt offset base) s rt .unspecified ∧
      (s.params.cp1Usable = true → LeavesInFpr (.lwc1 ft offset base) s ft .unspecified))

/-- SB, at an address MemCheck admits: the byte at the effective address becomes the low byte of x[rt], and no other
byte of memory changes (46_load_store.md R190). -/
def Obligations.ByteStores : Prop :=
  ∀ (s : State) (rt base : Reg) (offset : Imm),
    memCheck s (effectiveAddress (s.x .first base) offset) .byte .store = none →
    StoresAt (.sb rt offset base) s (effectiveAddress (s.x .first base) offset) 1 fun t =>
      ∃ b, t.mem.read (effectiveAddress (s.x .first base) offset).toNat = some b ∧
        b.toNat = (s.x .second rt).toNat % 256

/-- SW and SWC1, at an aligned address MemCheck admits (SWC1 with CP1_USABLE true): the four bytes at the effective
address hold the word in the order ENDIAN, and no other byte of memory changes (46_load_store.md R191,
R193). -/
def Obligations.WordStores : Prop :=
  ∀ (s : State) (rt base : Reg) (ft : FReg) (offset : Imm),
    (effectiveAddress (s.x .first base) offset).toNat % 4 = 0 →
    memCheck s (effectiveAddress (s.x .first base) offset) .word .store = none →
    StoresAt (.sw rt offset base) s (effectiveAddress (s.x .first base) offset) 4
      (fun t => HoldsWord t (effectiveAddress (s.x .first base) offset).toNat (s.x .second rt)) ∧
    (s.params.cp1Usable = true →
      StoresAt (.swc1 ft offset base) s (effectiveAddress (s.x .first base) offset) 4
        (fun t => HoldsWord t (effectiveAddress (s.x .first base) offset).toNat (s.f .second ft)))

/-- Where a load or store raises: a word access at a misaligned address raises AddressError before MemCheck is
asked; else MemCheck's answer, with the kind and the address in the record; a byte access is never
misaligned; and LWC1 and SWC1 only when CP1_USABLE is true (20_memory.md R46, R47, R49, R50; 46_load_store.md
R185). -/
def Obligations.AccessesRaiseInOrder : Prop :=
  ∀ (i : Instr) (s : State) (kind : AccessKind) (width : Width) (base : Reg) (offset : Imm),
    dataAccess i = some (kind, width, base, offset) →
    (i.isCp1 = true → s.params.cp1Usable = true) →
    (width = .word → (effectiveAddress (s.x .first base) offset).toNat % 4 ≠ 0 →
      RaisesAt i s .addressError kind (effectiveAddress (s.x .first base) offset)) ∧
    ((width = .word → (effectiveAddress (s.x .first base) offset).toNat % 4 = 0) →
      ∀ name, memCheck s (effectiveAddress (s.x .first base) offset) width kind = some name →
        RaisesAt i s name kind (effectiveAddress (s.x .first base) offset))

/-- After SW of a word, the very next instruction reads it back whole with LW at the same address, and byte by byte
with LBU: at address plus `k` the byte that ENDIAN puts there (20_memory.md R43, R54, R59). -/
def Obligations.StoreThenLoad : Prop :=
  ∀ (s t : State) (rt base rd base' : Reg) (offset offset' : Imm),
    exec (.sw rt offset base) s = .next t →
    (effectiveAddress (t.x .first base') offset' = effectiveAddress (s.x .first base) offset →
      memCheck t (effectiveAddress (t.x .first base') offset') .word .load = none →
      WritesGpr (.lw rd offset' base') t rd (s.x .second rt)) ∧
    (∀ k < 4, (effectiveAddress (t.x .first base') offset').toNat =
        (effectiveAddress (s.x .first base) offset).toNat + k →
      memCheck t (effectiveAddress (t.x .first base') offset') .byte .load = none →
      ∃ v, WritesGpr (.lbu rd offset' base') t rd v ∧
        v.toNat = (s.x .second rt).toNat / byteWeight s.params.endian k % 256)

/-! ## Branches and jumps -/

/-- The six conditional branches outside a delay slot: taken on their condition, to the PC-relative target; else on
in sequence; `ds` is true either way and no register changes (43_branch_jump.md R151, R154 to R159). -/
def Obligations.ConditionalBranches : Prop :=
  ∀ (s : State) (rs rt : Reg) (offset : Imm), s.ds = false →
    BranchesIf (.beq rs rt offset) s offset (s.x .first rs = s.x .second rt) ∧
    BranchesIf (.bne rs rt offset) s offset (s.x .first rs ≠ s.x .second rt) ∧
    BranchesIf (.bgez rs offset) s offset (0 ≤ (s.x .first rs).toInt) ∧
    BranchesIf (.bgtz rs offset) s offset (0 < (s.x .first rs).toInt) ∧
    BranchesIf (.blez rs offset) s offset ((s.x .first rs).toInt ≤ 0) ∧
    BranchesIf (.bltz rs offset) s offset ((s.x .first rs).toInt < 0)

/-- Jumps outside a delay slot: J and JAL to the index within the 256 MB region of the delay-slot instruction, JR and
JALR to the old contents of rs; JAL and JALR with the link `pc + 8` in GPR 31 or rd (43_branch_jump.md R160 to
R163). JALR with rs = rd is a fault: the source has its result UNPREDICTABLE, and the fault is the choice of R162
and 92_eei_decisions.md D13, which the model follows (log entry 10). -/
def Obligations.Jumps : Prop :=
  ∀ (s : State) (index : BitVec 26) (rd rs : Reg), s.ds = false →
    (∃ target, IsJumpTarget s.pc index target ∧ TransfersTo (.j index) s target ∧
      LinksTo (.jal index) s 31#5 target) ∧
    TransfersTo (.jr rs) s (s.x .first rs) ∧
    (rs ≠ rd → LinksTo (.jalr rd rs) s rd (s.x .first rs)) ∧
    exec (.jalr rs rs) s = .fault .jalrSameRegister

/-! ## Floating point -/

/-- The format: every pattern is exactly one of NaN, infinity, zero, subnormal and normal, and the value of a finite
one, in units of 2^-149, is that of the table of R120 (41_floating_point.md R120). -/
def Obligations.FormatOfSingles : Prop :=
  ∀ w : Word,
    (isNaN w = true ↔ w.toNat / 2 ^ 23 % 2 ^ 8 = 255 ∧ w.toNat % 2 ^ 23 ≠ 0) ∧
    (isInf w = true ↔ w.toNat / 2 ^ 23 % 2 ^ 8 = 255 ∧ w.toNat % 2 ^ 23 = 0) ∧
    (isSubnormal w = true ↔ w.toNat / 2 ^ 23 % 2 ^ 8 = 0 ∧ w.toNat % 2 ^ 23 ≠ 0) ∧
    (isZero w = true ↔ w.toNat / 2 ^ 23 % 2 ^ 8 = 0 ∧ w.toNat % 2 ^ 23 = 0) ∧
    (fpSign w = true ↔ 2 ^ 31 ≤ w.toNat) ∧
    (w.toNat / 2 ^ 23 % 2 ^ 8 = 0 →
      (fpValue w : ℚ) * 2 ^ (-149 : ℤ) =
        (-1) ^ (w.toNat / 2 ^ 31) * (w.toNat % 2 ^ 23 : ℕ) * 2 ^ (-149 : ℤ)) ∧
    (1 ≤ w.toNat / 2 ^ 23 % 2 ^ 8 → w.toNat / 2 ^ 23 % 2 ^ 8 ≤ 254 →
      (fpValue w : ℚ) * 2 ^ (-149 : ℤ) =
        (-1) ^ (w.toNat / 2 ^ 31) * (2 ^ 23 + (w.toNat % 2 ^ 23 : ℕ)) *
          2 ^ ((w.toNat / 2 ^ 23 % 2 ^ 8 : ℕ) - 150 : ℤ))

/-- ADD.S and SUB.S on finite operands are correctly rounded in all four modes, with the sign of an exact zero that
R121 gives (41_floating_point.md R121, R126, R127). -/
def Obligations.SumsRoundCorrectly : Prop :=
  ∀ (mode : RoundingMode) (a b : Word), fpFinite a → fpFinite b →
    (¬ RoundOverflows mode (FpOp.add.exact a b) →
      RoundedResult mode a b (FpOp.add.exact a b)
        (if fpSign a = fpSign b then fpSign a else decide (mode = .rm)) (fpAddS mode a b)) ∧
    (¬ RoundOverflows mode (FpOp.sub.exact a b) →
      RoundedResult mode a b (FpOp.sub.exact a b)
        (if fpSign a = fpSign b then decide (mode = .rm) else fpSign a) (fpSubS mode a b))

/-- MUL.S on finite operands is correctly rounded in all four modes, a zero product with the exclusive-or of the
signs (41_floating_point.md R121, R128). -/
def Obligations.ProductsRoundCorrectly : Prop :=
  ∀ (mode : RoundingMode) (a b : Word), fpFinite a → fpFinite b →
    ¬ RoundOverflows mode (FpOp.mul.exact a b) →
    RoundedResult mode a b (FpOp.mul.exact a b) (fpSign a != fpSign b) (fpMulS mode a b)

/-- DIV.S of finite operands, the divisor not zero, is correctly rounded in all four modes, a zero quotient with the
exclusive-or of the signs (41_floating_point.md R121, R129). -/
def Obligations.QuotientsRoundCorrectly : Prop :=
  ∀ (mode : RoundingMode) (a b : Word), FpOp.div.finiteOn a b →
    ¬ RoundOverflows mode (FpOp.div.exact a b) →
    RoundedResult mode a b (FpOp.div.exact a b) (fpSign a != fpSign b) (fpDivS mode a b)

/-- When the rounded result exceeds the largest finite value, the result is infinity or the largest finite value, by
mode and sign, and Overflow and Inexact arise (41_floating_point.md R122). -/
def Obligations.OverflowedResults : Prop :=
  ∀ (op : FpOp) (mode : RoundingMode) (a b : Word), op.finiteOn a b →
    RoundOverflows mode (op.exact a b) →
    OverflowedResult mode (op.exact a b) (op.run mode a b)

/-- InvalidOperation arises exactly for a NaN operand and for the invalid operations of R122, and exactly then the
result is some NaN and no other condition but a subnormal operand is reported (41_floating_point.md R122,
R124; that every NaN operand counts is the treatment R124 leaves to the model, log entry 11). -/
def Obligations.InvalidOperationExactly : Prop :=
  ∀ (op : FpOp) (mode : RoundingMode) (a b : Word),
    ((op.run mode a b).2.invalid = true ↔
      isNaN a = true ∨ isNaN b = true ∨ op.invalidOn a b) ∧
    ((op.run mode a b).1 = .someNaN ↔ (op.run mode a b).2.invalid = true) ∧
    ((op.run mode a b).2.invalid = true →
      (op.run mode a b).2.divByZero = false ∧ (op.run mode a b).2.overflow = false ∧
      (op.run mode a b).2.tiny = false ∧ (op.run mode a b).2.inexact = false)

/-- Infinities and division by zero: what R122, R126 to R129 give for a valid operation with an infinite operand,
exact and with nothing to report; and a signed infinity with DivisionByZero for a finite non-zero value over
zero. -/
def Obligations.InfinityAndZeroDivisor : Prop :=
  ∀ (op : FpOp) (mode : RoundingMode) (a b : Word), isNaN a = false → isNaN b = false →
    ¬ op.invalidOn a b →
    ((isInf a = true ∨ isInf b = true) →
      (op.run mode a b).1 = .bits
        (match op with
          | .add => if isInf a then a else b
          | .sub => if isInf a then a else b ^^^ 0x80000000#32
          | .mul => if fpSign a = fpSign b then 0x7F800000#32 else 0xFF800000#32
          | .div =>
            if isInf a then (if fpSign a = fpSign b then 0x7F800000#32 else 0xFF800000#32)
            else (if fpSign a = fpSign b then 0x00000000#32 else 0x80000000#32)) ∧
      (op.run mode a b).2.divByZero = false ∧ (op.run mode a b).2.overflow = false ∧
      (op.run mode a b).2.tiny = false ∧ (op.run mode a b).2.inexact = false) ∧
    (op = .div → isZero b = true → isInf a = false →
      (op.run mode a b).1 = .bits (if fpSign a = fpSign b then 0x7F800000#32 else 0xFF800000#32) ∧
      (op.run mode a b).2.divByZero = true ∧ (op.run mode a b).2.overflow = false ∧
      (op.run mode a b).2.tiny = false ∧ (op.run mode a b).2.inexact = false)

/-- FPFinish: the first cause, in its order, that arises and is enabled is raised and nothing is written; with none,
the result is written, or some NaN (41_floating_point.md R122, 60_exceptions.md R231). -/
def Obligations.FpFinishInOrder : Prop :=
  ∀ (op : FpOp) (s : State) (fd fs ft : FReg) (r : FpResult) (f : FpFacts),
    s.params.cp1Usable = true → op.run s.params.fpRm (s.f .first fs) (s.f .second ft) = (r, f) →
    ((∀ c, ¬ (Arises s.params f c ∧ Enabled s.params c)) →
      (∀ w, r = .bits w → WritesFpr (op.instr fd fs ft) s fd w) ∧
      (r = .someNaN → WritesSomeNaN (op.instr fd fs ft) s fd)) ∧
    (∀ c, Arises s.params f c → Enabled s.params c →
      (∀ c', causeRank c' < causeRank c → ¬ (Arises s.params f c' ∧ Enabled s.params c')) →
      Raises (op.instr fd fs ft) s (.floatingPoint c))

/-- The four operations always complete, on every operand, when CP1_USABLE is true, FP_ENABLES is empty and
FP_SUBNORMAL is `ieee`; and with the default FP_SUBNORMAL whenever no operand is subnormal and no finite exact
result is tiny (60_exceptions.md R231, 41_floating_point.md R125). -/
def Obligations.FpCompletesWithoutEnables : Prop :=
  ∀ (op : FpOp) (s : State) (fd fs ft : FReg),
    s.params.cp1Usable = true → s.params.fpEnables = FpEnables.none →
    (s.params.fpSubnormal = .ieee ∨
      (isSubnormal (s.f .first fs) = false ∧ isSubnormal (s.f .second ft) = false ∧
        (op.finiteOn (s.f .first fs) (s.f .second ft) → ¬ IsTiny (op.exact (s.f .first fs) (s.f .second ft))))) →
    ∃ c, LeavesInFpr (op.instr fd fs ft) s fd c ∧
      ((∃ w, (op.run s.params.fpRm (s.f .first fs) (s.f .second ft)).1 = .bits w ∧ c = .holds w) ∨
        ((op.run s.params.fpRm (s.f .first fs) (s.f .second ft)).1 = .someNaN ∧ c = .someNaN))

/-- UnimplementedOperation is raised, whatever is enabled, exactly when FP_SUBNORMAL is `unimplemented` and an operand
is subnormal or the exact result is tiny (41_floating_point.md R125). -/
def Obligations.UnimplementedExactly : Prop :=
  ∀ (op : FpOp) (s : State) (fd fs ft : FReg), s.params.cp1Usable = true →
    (Raises (op.instr fd fs ft) s (.floatingPoint .unimplementedOperation) ↔
      s.params.fpSubnormal = .unimplemented ∧
        (isSubnormal (s.f .first fs) = true ∨ isSubnormal (s.f .second ft) = true ∨
          (op.finiteOn (s.f .first fs) (s.f .second ft) ∧ IsTiny (op.exact (s.f .first fs) (s.f .second ft)))))

/-- MOV.S, MFC1 and MTC1 copy what the register holds: all 32 bits of a value unchanged, NaN and subnormal patterns too;
and raise nothing but CoprocessorUnusable, when CP1_USABLE is false (41_floating_point.md R130, R132, R133). That a
copy of an unspecified register is unspecified, and of some NaN some NaN, is the model's reading (log entry 25). -/
def Obligations.FpMovesCopyBits : Prop :=
  ∀ (s : State) (fd fs : FReg) (rt : Reg),
    (s.params.cp1Usable = true →
      LeavesInFpr (.movS fd fs) s fd (s.fprAt fs) ∧ LeavesInGpr (.mfc1 rt fs) s rt (s.fprAt fs) ∧
        LeavesInFpr (.mtc1 rt fs) s fs (s.gprAt rt)) ∧
    (s.params.cp1Usable = false →
      RaisesUnusable (.movS fd fs) s ∧ RaisesUnusable (.mfc1 rt fs) s ∧ RaisesUnusable (.mtc1 rt fs) s)

/-- NEG.S: with CP1_USABLE false it raises CoprocessorUnusable; else a NaN raises InvalidOperation where enabled and
else gives some NaN; a subnormal raises UnimplementedOperation under `unimplemented`; every other pattern has
bit 31 changed and the rest kept (41_floating_point.md R131). -/
def Obligations.NegateSingle : Prop :=
  ∀ (s : State) (fd fs : FReg),
    (s.params.cp1Usable = false → RaisesUnusable (.negS fd fs) s) ∧
    (s.params.cp1Usable = true →
      (isNaN (s.f .first fs) = true → s.params.fpEnables.invalid = true →
        Raises (.negS fd fs) s (.floatingPoint .invalidOperation)) ∧
      (isNaN (s.f .first fs) = true → s.params.fpEnables.invalid = false →
        WritesSomeNaN (.negS fd fs) s fd) ∧
      (isSubnormal (s.f .first fs) = true → s.params.fpSubnormal = .unimplemented →
        Raises (.negS fd fs) s (.floatingPoint .unimplementedOperation)) ∧
      (isNaN (s.f .first fs) = false →
        (isSubnormal (s.f .first fs) = false ∨ s.params.fpSubnormal = .ieee) →
        ∃ v, WritesFpr (.negS fd fs) s fd v ∧ (fpSign v = !fpSign (s.f .first fs)) ∧
          v.toNat % 2 ^ 31 = (s.f .first fs).toNat % 2 ^ 31))

/-- A free NaN is a draw among all NaN patterns: a read of a register that holds some NaN gives the pattern of the free
draw of this instruction and this operand, which is a NaN; every draw gives a NaN, and every NaN pattern is the
pattern of some draw (41_floating_point.md R124; 10_state.md R35). That the read is a draw and no fault is the model's
choice of R35's two treatments (log entries 7 and 11). -/
def Obligations.FreeNaNIsAnyNaN : Prop :=
  (∀ (s : State) (k : Operand),
    s.value k .someNaN = nanOfDraw (Config.freeNaN s.draws k) ∧ isNaN (s.value k .someNaN) = true) ∧
  (∀ d : Word, isNaN (nanOfDraw d) = true) ∧
  (∀ w : Word, isNaN w = true → ∃ d, nanOfDraw d = w)

/-! ## The assembler -/

/-- LA is LUI then ORI and leaves the label's address in rt and nothing else changed; LI is one ADDI from GPR 0, exists
exactly for -32768 to 32767, and leaves the constant in rt; B is BEQ r0, r0 and always branches
(45_pseudo_instructions.md R181, R182; 43_branch_jump.md R153). Which two instructions LA is, is the spec's own
choice and not the source's (R181, 92_eei_decisions.md D33). As a completion this speaks of LUI, ORI, ADDI from
GPR 0 and BEQ r0, r0 only. -/
def Obligations.PseudoInstructions : Prop :=
  (∀ (s : State) (rt : Reg) (l : Word), ∃ i j t u, pseudoLa rt l = [i, j] ∧
    exec i s = .next t ∧ exec j t = .next u ∧ GprResult rt (.holds l) s u ∧ u.draws = s.draws + 2) ∧
  (∀ (rt : Reg) (n : Int), (∃ i, pseudoLi rt n = some i) ↔ -32768 ≤ n ∧ n ≤ 32767) ∧
  (∀ (s : State) (rt : Reg) (n : Int) (i : Instr), pseudoLi rt n = some i →
    ∃ v, WritesGpr i s rt v ∧ v.toInt = n) ∧
  (∀ (s : State) (offset : Imm), s.ds = false →
    ∃ target, IsBranchTarget s.pc offset target ∧ TransfersTo (idiomB offset) s target)

/-- The field the assembler computes for a branch or jump to a destination reaches that destination, and it reports
an error exactly where no field does (30_encoding.md R84). -/
def Obligations.AssembledTargets : Prop :=
  ∀ a t : Word,
    (∀ offset, branchField a t = some offset → branchTarget a offset = t) ∧
    (branchField a t = none → ∀ offset, branchTarget a offset ≠ t) ∧
    (∀ index, jumpField a t = some index → jumpTarget a index = t) ∧
    (jumpField a t = none → ∀ index, jumpTarget a index ≠ t)

/-! ## Unspecified registers -/

/-- Reading and leaving unspecified registers (10_state.md R35). A register that holds a value reads as it, for either
operand; an unspecified one reads as the free draw of this instruction and this operand, and one that holds some NaN
as the NaN pattern of theirs; GPR 0 is never unspecified. Every completed step takes new draws. A GPR that a completed instruction
changed holds a value, unless the instruction copies; an FPR too, unless it copies or gives some NaN; and only MUL, DIV
and DIVU make HI or LO unspecified. The draw is the treatment of R35 that the model chose (log entry 7). -/
def Obligations.UnspecifiedRegisters : Prop :=
  (∀ (s : State) (k : Operand) (r : Reg) (q : FReg),
    (∀ v, s.gprAt r = .holds v → s.x k r = v) ∧ (∀ v, s.fprAt q = .holds v → s.f k q = v) ∧
    (s.gprAt r = .unspecified → s.x k r = Config.freeWord s.draws k ∧ r ≠ 0#5) ∧
    (s.fprAt q = .unspecified → s.f k q = Config.freeWord s.draws k) ∧
    (s.gprAt r = .someNaN → s.x k r = nanOfDraw (Config.freeNaN s.draws k) ∧
      isNaN (s.x k r) = true ∧ r ≠ 0#5) ∧
    (s.fprAt q = .someNaN → s.f k q = nanOfDraw (Config.freeNaN s.draws k) ∧
      isNaN (s.f k q) = true)) ∧
  (∀ (n : Nat) (s t : State), RunsTo n s t → t.draws = s.draws + n) ∧
  (∀ (i : Instr) (s t : State), exec i s = .next t →
    (∀ r, t.gprAt r ≠ s.gprAt r →
      (∃ v, t.gprAt r = .holds v) ∨
        i.mnemonic ∈ ["MFHI", "MFLO", "LB", "LBU", "LW", "MOVN", "MOVZ", "MFC1"]) ∧
    (∀ r, t.fprAt r ≠ s.fprAt r →
      (∃ v, t.fprAt r = .holds v) ∨ i.mnemonic ∈ ["LWC1", "MOV.S", "MTC1"] ∨
        (t.fprAt r = .someNaN ∧ i.mnemonic ∈ ["ADD.S", "SUB.S", "MUL.S", "DIV.S", "NEG.S"])) ∧
    (t.hi ≠ s.hi → t.hi = .unspecified → i.mnemonic ∈ ["MUL", "DIV", "DIVU"]) ∧
    (t.lo ≠ s.lo → t.lo = .unspecified → i.mnemonic ∈ ["MUL", "DIV", "DIVU"]))
end

