-- ==== Sys2Proof/Laws/Encoding.lean ====
section
/-! SUPPORT. The fields of an encoded word, and a word rebuilt from its fields. -/

namespace Sys2Proof

section encR
variable (op : BitVec 6) (rs rt rd sa : BitVec 5) (fn : BitVec 6)

@[simp] theorem opcodeOf_encR : opcodeOf (encR op rs rt rd sa fn) = op := by
  grind [opcodeOf, encR]
@[simp] theorem rsOf_encR : rsOf (encR op rs rt rd sa fn) = rs := by grind [rsOf, encR]
@[simp] theorem rtOf_encR : rtOf (encR op rs rt rd sa fn) = rt := by grind [rtOf, encR]
@[simp] theorem rdOf_encR : rdOf (encR op rs rt rd sa fn) = rd := by grind [rdOf, encR]
@[simp] theorem saOf_encR : saOf (encR op rs rt rd sa fn) = sa := by grind [saOf, encR]
@[simp] theorem functOf_encR : functOf (encR op rs rt rd sa fn) = fn := by grind [functOf, encR]

end encR

section encI
variable (op : BitVec 6) (rs rt : BitVec 5) (imm : Imm)

@[simp] theorem opcodeOf_encI : opcodeOf (encI op rs rt imm) = op := by grind [opcodeOf, encI]
@[simp] theorem rsOf_encI : rsOf (encI op rs rt imm) = rs := by grind [rsOf, encI]
@[simp] theorem rtOf_encI : rtOf (encI op rs rt imm) = rt := by grind [rtOf, encI]
@[simp] theorem immOf_encI : immOf (encI op rs rt imm) = imm := by grind [immOf, encI]

end encI

section encJ
variable (op : BitVec 6) (index : BitVec 26)

@[simp] theorem opcodeOf_encJ : opcodeOf (encJ op index) = op := by grind [opcodeOf, encJ]
@[simp] theorem indexOf_encJ : indexOf (encJ op index) = index := by grind [indexOf, encJ]

end encJ

/-! ## A word is its fields -/

theorem word_eq_encR (w : Word) :
    w = encR (opcodeOf w) (rsOf w) (rtOf w) (rdOf w) (saOf w) (functOf w) := by
  grind [encR, opcodeOf, rsOf, rtOf, rdOf, saOf, functOf]

theorem word_eq_encI (w : Word) : w = encI (opcodeOf w) (rsOf w) (rtOf w) (immOf w) := by
  grind [encI, opcodeOf, rsOf, rtOf, immOf]

theorem word_eq_encJ (w : Word) : w = encJ (opcodeOf w) (indexOf w) := by
  grind [encJ, opcodeOf, indexOf]

theorem word_eq_syscall (w : Word) :
    w = (opcodeOf w ++ codeOf w ++ functOf w : BitVec (6 + 20 + 6)) := by
  grind [opcodeOf, codeOf, functOf]

/-! ## A mask, field by field -/

theorem append_and_append {n m : Nat} (a c : BitVec n) (b d : BitVec m) :
    (a ++ b) &&& (c ++ d) = (a &&& c) ++ (b &&& d) := by
  ext i hi
  simp [BitVec.getElem_append]

theorem encJ_and (op mop : BitVec 6) (index mindex : BitVec 26) :
    encJ op index &&& encJ mop mindex = encJ (op &&& mop) (index &&& mindex) :=
  append_and_append op mop index mindex

theorem encI_and (op mop : BitVec 6) (rs rt mrs mrt : BitVec 5) (imm mimm : Imm) :
    encI op rs rt imm &&& encI mop mrs mrt mimm =
      encI (op &&& mop) (rs &&& mrs) (rt &&& mrt) (imm &&& mimm) := by
  refine (append_and_append (op ++ rs ++ rt) (mop ++ mrs ++ mrt) imm mimm).trans ?_
  rw [append_and_append (op ++ rs), append_and_append op]
  rfl

theorem encR_and (op mop : BitVec 6) (rs rt rd sa mrs mrt mrd msa : BitVec 5)
    (fn mfn : BitVec 6) :
    encR op rs rt rd sa fn &&& encR mop mrs mrt mrd msa mfn =
      encR (op &&& mop) (rs &&& mrs) (rt &&& mrt) (rd &&& mrd) (sa &&& msa) (fn &&& mfn) := by
  refine (append_and_append (op ++ rs ++ rt ++ rd ++ sa) (mop ++ mrs ++ mrt ++ mrd ++ msa)
    fn mfn).trans ?_
  rw [append_and_append (op ++ rs ++ rt ++ rd), append_and_append (op ++ rs ++ rt),
    append_and_append (op ++ rs), append_and_append op]
  rfl

/-! ## Byte order -/

/-- A word laid out and read back in the same order is the word (20_memory.md R43). -/
@[simp] theorem assembleWord_wordBytes (e : Endian) (w : Word) :
    assembleWord e (wordByte e w 0) (wordByte e w 1) (wordByte e w 2) (wordByte e w 3) = w := by
  cases e <;> (simp only [assembleWord, wordByte]; grind)

end Sys2Proof
end

