-- ==== Sys2Proof/Laws/State.lean ====
section
/-! SUPPORT. One lemma for each field of each update of the state, and reading a register after a write. -/

namespace Sys2Proof.Machine

/-! ## Reading after writing -/

@[simp] theorem State.gprAt_zero (s : State) : s.gprAt 0#5 = .holds 0#32 := rfl

@[simp] theorem State.x_zero (s : State) (k : Operand) : s.x k 0#5 = 0#32 := rfl

@[simp] theorem State.value_holds (s : State) (k : Operand) (v : Word) : s.value k (.holds v) = v := rfl

@[simp] theorem State.value_unspecified (s : State) (k : Operand) :
    s.value k .unspecified = Config.freeWord s.draws k := rfl

/-- A register that holds a value reads as it, for either operand. -/
theorem State.x_of_holds (s : State) (k : Operand) (r : Reg) (v : Word) (h : s.gprAt r = .holds v) :
    s.x k r = v := by
  simp [State.x, h]

theorem State.f_of_holds (s : State) (k : Operand) (r : FReg) (v : Word) (h : s.fprAt r = .holds v) :
    s.f k r = v := by
  simp [State.f, h]

@[simp] theorem State.gprAt_setGpr_same (s : State) (r : Reg) (c : Contents) :
    (s.setGpr r c).gprAt r = if r = 0#5 then .holds 0#32 else c := by
  unfold State.gprAt State.setGpr
  split <;> simp

theorem State.gprAt_setGpr_ne (s : State) (r q : Reg) (c : Contents) (h : q ≠ r) :
    (s.setGpr r c).gprAt q = s.gprAt q := by
  unfold State.gprAt State.setGpr
  have hn : r.toNat ≠ q.toNat := fun e => h (BitVec.eq_of_toNat_eq e.symm)
  split
  · rfl
  · split
    · rfl
    · exact Vector.getElem_set_ne r.isLt q.isLt hn

/-- Every GPR after a write to one of them. -/
theorem State.gprAt_setGpr (s : State) (r q : Reg) (c : Contents) :
    (s.setGpr r c).gprAt q = if q = 0#5 then .holds 0#32 else if q = r then c else s.gprAt q := by
  by_cases hq : q = r
  · subst hq
    by_cases h0 : q = 0#5 <;> simp [h0]
  · rw [State.gprAt_setGpr_ne _ _ _ _ hq]
    by_cases h0 : q = 0#5 <;> simp [h0, hq]

@[simp] theorem State.fprAt_setFpr_same (s : State) (r : FReg) (c : Contents) :
    (s.setFpr r c).fprAt r = c := by
  simp [State.fprAt, State.setFpr]

theorem State.fprAt_setFpr_ne (s : State) (r q : FReg) (c : Contents) (h : q ≠ r) :
    (s.setFpr r c).fprAt q = s.fprAt q := by
  have hn : r.toNat ≠ q.toNat := fun e => h (BitVec.eq_of_toNat_eq e.symm)
  exact Vector.getElem_set_ne r.isLt q.isLt hn

/-- Every FPR after a write to one of them. -/
theorem State.fprAt_setFpr (s : State) (r q : FReg) (c : Contents) :
    (s.setFpr r c).fprAt q = if q = r then c else s.fprAt q := by
  by_cases hq : q = r
  · subst hq
    simp
  · rw [State.fprAt_setFpr_ne _ _ _ _ hq, if_neg hq]

/-- GPRs hold the same when their storage is the same. -/
theorem State.gprAt_congr (s t : State) (h : t.gpr = s.gpr) (r : Reg) : t.gprAt r = s.gprAt r := by
  simp [State.gprAt, h]

/-- FPRs hold the same when their storage is the same. -/
theorem State.fprAt_congr (s t : State) (h : t.fpr = s.fpr) (r : FReg) : t.fprAt r = s.fprAt r := by
  simp [State.fprAt, h]

/-- What a read gets depends on the contents and the number of the instruction alone. -/
theorem State.value_congr (s t : State) (h : t.draws = s.draws) (k : Operand) (c : Contents) :
    t.value k c = s.value k c := by
  cases c <;> simp [State.value, h]

/-- A read of a register that holds some NaN is a draw among NaN patterns. -/
@[simp] theorem State.value_someNaN (s : State) (k : Operand) :
    s.value k .someNaN = nanOfDraw (Config.freeNaN s.draws k) := rfl

section setGpr
variable (s : State) (r : Reg) (c : Contents) (v : Word)

/-- A write of a value leaves it in the register (10_state.md R35). -/
@[simp] theorem State.setX_eq : s.setX r v = s.setGpr r (.holds v) := rfl

@[simp] theorem State.setGpr_params : (s.setGpr r c).params = s.params := by unfold setGpr; split <;> rfl
@[simp] theorem State.setGpr_hi : (s.setGpr r c).hi = s.hi := by unfold setGpr; split <;> rfl
@[simp] theorem State.setGpr_lo : (s.setGpr r c).lo = s.lo := by unfold setGpr; split <;> rfl
@[simp] theorem State.setGpr_fpr : (s.setGpr r c).fpr = s.fpr := by unfold setGpr; split <;> rfl
@[simp] theorem State.setGpr_pc : (s.setGpr r c).pc = s.pc := by unfold setGpr; split <;> rfl
@[simp] theorem State.setGpr_npc : (s.setGpr r c).npc = s.npc := by unfold setGpr; split <;> rfl
@[simp] theorem State.setGpr_ds : (s.setGpr r c).ds = s.ds := by unfold setGpr; split <;> rfl
@[simp] theorem State.setGpr_mem : (s.setGpr r c).mem = s.mem := by unfold setGpr; split <;> rfl
@[simp] theorem State.setGpr_written : (s.setGpr r c).written = s.written := by unfold setGpr; split <;> rfl
@[simp] theorem State.setGpr_draws : (s.setGpr r c).draws = s.draws := by unfold setGpr; split <;> rfl
@[simp] theorem State.setGpr_fprAt (q : FReg) : (s.setGpr r c).fprAt q = s.fprAt q :=
  s.fprAt_congr _ (by simp) q

/-- The storage behind GPR 0 is never written (10_state.md R21). -/
@[simp] theorem State.setGpr_gpr_zero : (s.setGpr r c).gpr[0] = s.gpr[0] := by
  unfold setGpr
  split
  · rfl
  · rename_i h
    have hn : r.toNat ≠ 0 := fun e => h (BitVec.eq_of_toNat_eq e)
    exact Vector.getElem_set_ne r.isLt (by decide) hn

end setGpr

section setFpr
variable (s : State) (r : FReg) (c : Contents) (v : Word)

@[simp] theorem State.setF_eq : s.setF r v = s.setFpr r (.holds v) := rfl

@[simp] theorem State.setFpr_params : (s.setFpr r c).params = s.params := rfl
@[simp] theorem State.setFpr_gpr : (s.setFpr r c).gpr = s.gpr := rfl
@[simp] theorem State.setFpr_hi : (s.setFpr r c).hi = s.hi := rfl
@[simp] theorem State.setFpr_lo : (s.setFpr r c).lo = s.lo := rfl
@[simp] theorem State.setFpr_pc : (s.setFpr r c).pc = s.pc := rfl
@[simp] theorem State.setFpr_npc : (s.setFpr r c).npc = s.npc := rfl
@[simp] theorem State.setFpr_ds : (s.setFpr r c).ds = s.ds := rfl
@[simp] theorem State.setFpr_mem : (s.setFpr r c).mem = s.mem := rfl
@[simp] theorem State.setFpr_written : (s.setFpr r c).written = s.written := rfl
@[simp] theorem State.setFpr_draws : (s.setFpr r c).draws = s.draws := rfl
@[simp] theorem State.setFpr_gprAt (q : Reg) : (s.setFpr r c).gprAt q = s.gprAt q := rfl

end setFpr

section setHiLo
variable (s : State) (hi lo : SpecialReg)

@[simp] theorem State.setHiLo_params : (s.setHiLo hi lo).params = s.params := rfl
@[simp] theorem State.setHiLo_gpr : (s.setHiLo hi lo).gpr = s.gpr := rfl
@[simp] theorem State.setHiLo_hi : (s.setHiLo hi lo).hi = hi := rfl
@[simp] theorem State.setHiLo_lo : (s.setHiLo hi lo).lo = lo := rfl
@[simp] theorem State.setHiLo_fpr : (s.setHiLo hi lo).fpr = s.fpr := rfl
@[simp] theorem State.setHiLo_pc : (s.setHiLo hi lo).pc = s.pc := rfl
@[simp] theorem State.setHiLo_npc : (s.setHiLo hi lo).npc = s.npc := rfl
@[simp] theorem State.setHiLo_ds : (s.setHiLo hi lo).ds = s.ds := rfl
@[simp] theorem State.setHiLo_mem : (s.setHiLo hi lo).mem = s.mem := rfl
@[simp] theorem State.setHiLo_written : (s.setHiLo hi lo).written = s.written := rfl
@[simp] theorem State.setHiLo_draws : (s.setHiLo hi lo).draws = s.draws := rfl
@[simp] theorem State.setHiLo_gprAt (q : Reg) : (s.setHiLo hi lo).gprAt q = s.gprAt q := rfl
@[simp] theorem State.setHiLo_fprAt (q : FReg) : (s.setHiLo hi lo).fprAt q = s.fprAt q := rfl
@[simp] theorem State.unspecifyHiLo_eq : s.unspecifyHiLo = s.setHiLo .unspecified .unspecified := rfl
@[simp] theorem State.setProduct_eq (p : Int) :
    s.setProduct p = s.setHiLo (.holds (highWord p)) (.holds (lowWord p)) := rfl

end setHiLo

section flow
variable (s : State) (a : Word)

@[simp] theorem State.advance_params : s.advance.params = s.params := rfl
@[simp] theorem State.advance_gpr : s.advance.gpr = s.gpr := rfl
@[simp] theorem State.advance_hi : s.advance.hi = s.hi := rfl
@[simp] theorem State.advance_lo : s.advance.lo = s.lo := rfl
@[simp] theorem State.advance_fpr : s.advance.fpr = s.fpr := rfl
@[simp] theorem State.advance_pc : s.advance.pc = s.npc := rfl
@[simp] theorem State.advance_npc : s.advance.npc = s.npc + 4#32 := rfl
@[simp] theorem State.advance_ds : s.advance.ds = false := rfl
@[simp] theorem State.advance_mem : s.advance.mem = s.mem := rfl
@[simp] theorem State.advance_written : s.advance.written = s.written := rfl
@[simp] theorem State.advance_draws : s.advance.draws = s.draws + 1 := rfl
@[simp] theorem State.advance_gprAt (q : Reg) : s.advance.gprAt q = s.gprAt q := rfl
@[simp] theorem State.advance_fprAt (q : FReg) : s.advance.fprAt q = s.fprAt q := rfl
@[simp] theorem State.branchTo_params : (s.branchTo a).params = s.params := rfl
@[simp] theorem State.branchTo_gpr : (s.branchTo a).gpr = s.gpr := rfl
@[simp] theorem State.branchTo_hi : (s.branchTo a).hi = s.hi := rfl
@[simp] theorem State.branchTo_lo : (s.branchTo a).lo = s.lo := rfl
@[simp] theorem State.branchTo_fpr : (s.branchTo a).fpr = s.fpr := rfl
@[simp] theorem State.branchTo_pc : (s.branchTo a).pc = s.npc := rfl
@[simp] theorem State.branchTo_npc : (s.branchTo a).npc = a := rfl
@[simp] theorem State.branchTo_ds : (s.branchTo a).ds = true := rfl
@[simp] theorem State.branchTo_mem : (s.branchTo a).mem = s.mem := rfl
@[simp] theorem State.branchTo_written : (s.branchTo a).written = s.written := rfl
@[simp] theorem State.branchTo_draws : (s.branchTo a).draws = s.draws + 1 := rfl
@[simp] theorem State.branchTo_gprAt (q : Reg) : (s.branchTo a).gprAt q = s.gprAt q := rfl
@[simp] theorem State.branchTo_fprAt (q : FReg) : (s.branchTo a).fprAt q = s.fprAt q := rfl
/-- `no_branch()` is a branch to the address after the delay slot (10_state.md R27). -/
@[simp] theorem State.noBranch_eq : s.noBranch = s.branchTo (s.npc + 4#32) := rfl

end flow

section storeByte
variable (s : State) (a : Word) (b : Byte)

@[simp] theorem State.storeByte_params : (s.storeByte a b).params = s.params := rfl
@[simp] theorem State.storeByte_gpr : (s.storeByte a b).gpr = s.gpr := rfl
@[simp] theorem State.storeByte_hi : (s.storeByte a b).hi = s.hi := rfl
@[simp] theorem State.storeByte_lo : (s.storeByte a b).lo = s.lo := rfl
@[simp] theorem State.storeByte_fpr : (s.storeByte a b).fpr = s.fpr := rfl
@[simp] theorem State.storeByte_pc : (s.storeByte a b).pc = s.pc := rfl
@[simp] theorem State.storeByte_npc : (s.storeByte a b).npc = s.npc := rfl
@[simp] theorem State.storeByte_ds : (s.storeByte a b).ds = s.ds := rfl
@[simp] theorem State.storeByte_mem : (s.storeByte a b).mem = s.mem.write a.toNat b := rfl
@[simp] theorem State.storeByte_written :
    (s.storeByte a b).written = insertAddress a.toNat s.written := rfl
@[simp] theorem State.storeByte_draws : (s.storeByte a b).draws = s.draws := rfl
@[simp] theorem State.storeByte_gprAt (q : Reg) : (s.storeByte a b).gprAt q = s.gprAt q := rfl
@[simp] theorem State.storeByte_fprAt (q : FReg) : (s.storeByte a b).fprAt q = s.fprAt q := rfl

end storeByte

section storeBytes
variable (s : State) (a : Word) (v : Word)

@[simp] theorem State.storeBytes_params : (s.storeBytes a v).params = s.params := rfl
@[simp] theorem State.storeBytes_gpr : (s.storeBytes a v).gpr = s.gpr := rfl
@[simp] theorem State.storeBytes_hi : (s.storeBytes a v).hi = s.hi := rfl
@[simp] theorem State.storeBytes_lo : (s.storeBytes a v).lo = s.lo := rfl
@[simp] theorem State.storeBytes_fpr : (s.storeBytes a v).fpr = s.fpr := rfl
@[simp] theorem State.storeBytes_pc : (s.storeBytes a v).pc = s.pc := rfl
@[simp] theorem State.storeBytes_npc : (s.storeBytes a v).npc = s.npc := rfl
@[simp] theorem State.storeBytes_ds : (s.storeBytes a v).ds = s.ds := rfl
@[simp] theorem State.storeBytes_draws : (s.storeBytes a v).draws = s.draws := rfl
@[simp] theorem State.storeBytes_gprAt (q : Reg) : (s.storeBytes a v).gprAt q = s.gprAt q := rfl
@[simp] theorem State.storeBytes_fprAt (q : FReg) : (s.storeBytes a v).fprAt q = s.fprAt q := rfl

end storeBytes

section imageWord
variable (s : State) (a : Word) (w : Word)

@[simp] theorem State.imageWord_params : (s.imageWord a w).params = s.params := rfl
@[simp] theorem State.imageWord_gpr : (s.imageWord a w).gpr = s.gpr := rfl
@[simp] theorem State.imageWord_hi : (s.imageWord a w).hi = s.hi := rfl
@[simp] theorem State.imageWord_lo : (s.imageWord a w).lo = s.lo := rfl
@[simp] theorem State.imageWord_fpr : (s.imageWord a w).fpr = s.fpr := rfl
@[simp] theorem State.imageWord_pc : (s.imageWord a w).pc = s.pc := rfl
@[simp] theorem State.imageWord_npc : (s.imageWord a w).npc = s.npc := rfl
@[simp] theorem State.imageWord_ds : (s.imageWord a w).ds = s.ds := rfl
@[simp] theorem State.imageWord_draws : (s.imageWord a w).draws = s.draws := rfl

end imageWord

end Sys2Proof.Machine
end

