-- ==== Sys2Proof/Laws/Memory.lean ====
section
/-! SUPPORT. Memory: a read after a write, and the canonical form that every memory operation keeps. -/

namespace Sys2Proof.Machine

/-! ## Reading after writing -/

theorem lookup_cons_ite (a c : Nat) (b : Byte) (l : List Host.Cell) :
    List.lookup c ((a, b) :: l) = if c = a then some b else List.lookup c l := by
  rw [List.lookup_cons]
  by_cases h : c = a
  · simp [h]
  · simp [h, beq_eq_false_iff_ne.2 h]

theorem lookup_insertCell (a c : Nat) (b : Byte) (l : List Host.Cell) :
    (insertCell a b l).lookup c = if c = a then some b else l.lookup c := by
  induction l with
  | nil => simp [insertCell, lookup_cons_ite]
  | cons d l ih =>
    obtain ⟨d1, d2⟩ := d
    simp only [insertCell]
    split
    · simp only [lookup_cons_ite]
    · split
      · rename_i h
        subst h
        by_cases h : c = a <;> simp [lookup_cons_ite, h]
      · rename_i h
        rw [lookup_cons_ite, lookup_cons_ite, ih]
        by_cases hc : c = a
        · simp [hc, h]
        · simp [hc]

/-- One byte read after one byte written. -/
@[simp] theorem Memory.read_write (m : Memory) (a c : Nat) (b : Byte) :
    (m.write a b).read c = if c = a then some b else m.read c := lookup_insertCell a c b m.cells

theorem Memory.read_write_same (m : Memory) (a : Nat) (b : Byte) :
    (m.write a b).read a = some b := by simp

theorem Memory.read_write_ne (m : Memory) (a c : Nat) (b : Byte) (h : c ≠ a) :
    (m.write a b).read c = m.read c := by simp [h]

/-- The empty memory holds no specified byte. -/
@[simp] theorem Memory.read_nil (a : Nat) : ({ cells := [] } : Memory).read a = none := rfl

/-! ## The canonical form -/

theorem mem_insertCell (a : Nat) (b : Byte) (l : List Host.Cell) (c : Host.Cell)
    (h : c ∈ insertCell a b l) : c = (a, b) ∨ c ∈ l := by
  induction l with
  | nil => simpa [insertCell] using h
  | cons d l ih =>
    unfold insertCell at h
    split at h
    · simpa using h
    · split at h
      · rcases List.mem_cons.1 h with h | h
        · exact .inl h
        · exact .inr (List.mem_cons_of_mem _ h)
      · rcases List.mem_cons.1 h with h | h
        · exact .inr (h ▸ List.mem_cons_self)
        · exact (ih h).imp id (List.mem_cons_of_mem _)

theorem insertCell_sorted (a : Nat) (b : Byte) (l : List Host.Cell)
    (h : l.Pairwise (fun c d => c.1 < d.1)) :
    (insertCell a b l).Pairwise (fun c d => c.1 < d.1) := by
  induction l with
  | nil => simp [insertCell]
  | cons d l ih =>
    obtain ⟨hd, hl⟩ := List.pairwise_cons.1 h
    unfold insertCell
    split
    · rename_i h1
      refine List.pairwise_cons.2 ⟨fun c hc => ?_, h⟩
      rcases List.mem_cons.1 hc with rfl | hc
      · exact h1
      · exact Nat.lt_trans h1 (hd c hc)
    · split
      · rename_i h1 h2
        exact List.pairwise_cons.2 ⟨fun c hc => h2 ▸ hd c hc, hl⟩
      · rename_i h1 h2
        refine List.pairwise_cons.2 ⟨fun c hc => ?_, ih hl⟩
        rcases mem_insertCell a b l c hc with rfl | hc
        · exact Nat.lt_of_le_of_ne (Nat.le_of_not_lt h1) (fun e => h2 e.symm)
        · exact hd c hc

/-- A write inside the address space keeps the canonical form. -/
theorem Memory.write_wf (m : Memory) (a : Nat) (b : Byte) (ha : a < 2 ^ 32) (h : m.wf) :
    (m.write a b).wf := by
  refine ⟨insertCell_sorted a b m.cells h.1, fun c hc => ?_⟩
  rcases mem_insertCell a b m.cells c hc with rfl | hc
  · exact ha
  · exact h.2 c hc

/-- A byte store keeps the canonical form. -/
theorem State.storeByte_wf (s : State) (a : Word) (b : Byte) (h : s.mem.wf) :
    (s.storeByte a b).mem.wf := s.mem.write_wf a.toNat b a.isLt h

/-- A word store keeps the canonical form. -/
theorem State.storeBytes_wf (s : State) (a v : Word) (h : s.mem.wf) :
    (s.storeBytes a v).mem.wf := by
  unfold storeBytes
  exact storeByte_wf _ _ _ (storeByte_wf _ _ _ (storeByte_wf _ _ _ (storeByte_wf _ _ _ h)))

/-- Placing a word of the launch image keeps the canonical form. -/
theorem State.imageWord_wf (s : State) (a w : Word) (h : s.mem.wf) :
    (s.imageWord a w).mem.wf :=
  Memory.write_wf _ _ _ (a + 3#32).isLt (Memory.write_wf _ _ _ (a + 2#32).isLt
    (Memory.write_wf _ _ _ (a + 1#32).isLt (Memory.write_wf _ _ _ a.isLt h)))

/-- The memory of the reset state has the canonical form. -/
theorem State.reset_mem_wf : State.reset.mem.wf := by decide

/-! ## WRITTEN -/

@[simp] theorem mem_insertAddress (a c : Nat) (l : List Nat) :
    c ∈ insertAddress a l ↔ c = a ∨ c ∈ l := by
  induction l with
  | nil => simp [insertAddress]
  | cons d l ih =>
    unfold insertAddress
    split
    · simp
    · split
      · rename_i h
        subst h
        simp
      · simp [ih, or_left_comm]

theorem insertAddress_sorted (a : Nat) (l : List Nat) (h : l.Pairwise (· < ·)) :
    (insertAddress a l).Pairwise (· < ·) := by
  induction l with
  | nil => simp [insertAddress]
  | cons d l ih =>
    obtain ⟨hd, hl⟩ := List.pairwise_cons.1 h
    unfold insertAddress
    split
    · rename_i h1
      refine List.pairwise_cons.2 ⟨fun c hc => ?_, h⟩
      rcases List.mem_cons.1 hc with rfl | hc
      · exact h1
      · exact Nat.lt_trans h1 (hd c hc)
    · split
      · exact h
      · refine List.pairwise_cons.2 ⟨fun c hc => ?_, ih hl⟩
        rcases (mem_insertAddress a c l).1 hc with rfl | hc
        · omega
        · exact hd c hc

/-! ## A word store, byte by byte -/

/-- Every byte after a word store (20_memory.md R50): the later bytes win where the four addresses
would meet, which they never do. -/
theorem State.storeBytes_read (s : State) (a v : Word) (c : Nat) :
    (s.storeBytes a v).mem.read c =
      if c = (a + 3#32).toNat then some (wordByte s.params.endian v 3)
      else if c = (a + 2#32).toNat then some (wordByte s.params.endian v 2)
      else if c = (a + 1#32).toNat then some (wordByte s.params.endian v 1)
      else if c = a.toNat then some (wordByte s.params.endian v 0)
      else s.mem.read c := by
  simp [storeBytes]

/-- WRITTEN after a word store (20_memory.md R50). -/
theorem State.mem_storeBytes_written (s : State) (a v : Word) (c : Nat) :
    c ∈ (s.storeBytes a v).written ↔ c ∈ wordAddresses a ∨ c ∈ s.written := by
  simp [storeBytes, wordAddresses]
  tauto

/-- The four addresses of a word, for an address that is a multiple of 4: none wraps. -/
theorem wordAddresses_aligned (a : Word) (h : wordAligned a = true) :
    wordAddresses a = [a.toNat, a.toNat + 1, a.toNat + 2, a.toNat + 3] := by
  have h4 : a.toNat % 4 = 0 := by
    have := congrArg BitVec.toNat (eq_of_beq h)
    simpa [wordAligned, BitVec.extractLsb'_toNat] using this
  have hlt := a.isLt
  simp only [wordAddresses, BitVec.toNat_add, BitVec.toNat_ofNat]
  simp only [List.cons.injEq, and_true, true_and]
  omega

/-- The word at an address is a multiple of 4 exactly when its number is. -/
theorem wordAligned_iff (a : Word) : wordAligned a = true ↔ a.toNat % 4 = 0 := by
  constructor
  · intro h
    have := congrArg BitVec.toNat (eq_of_beq h)
    simpa [BitVec.extractLsb'_toNat] using this
  · intro h
    refine beq_iff_eq.2 (BitVec.eq_of_toNat_eq ?_)
    simpa [BitVec.extractLsb'_toNat] using h

end Sys2Proof.Machine
end

