-- ==== Sys2Proof/Laws/Ops.lean ====
section
/-! SUPPORT. For each shared operation, one lemma that says once everything it can do. A proof about an instruction
cites these and unfolds only the instruction's own meaning. -/

namespace Sys2Proof.Machine

/-! ## How an instruction ends -/

/-- `finish` completes exactly when nothing was raised, and then advances in sequence. -/
theorem finish_next (s t : State) (i : Instr) (e : Except Cause State) :
    finish s i e = .next t ↔ ∃ u, e = .ok u ∧ t = u.advance := by
  cases e <;> simp [finish, raise, eq_comm]

/-- `finish` faults exactly when something was raised, and then with its record. -/
theorem finish_fault (s : State) (i : Instr) (e : Except Cause State) (f : Fault) :
    finish s i e = .fault f ↔ ∃ c, e = .error c ∧ f = exceptionFault s (some (encode i)) c := by
  cases e <;> simp [finish, raise, eq_comm]

theorem finish_refused (s : State) (i : Instr) (e : Except Cause State) (r : Refusal) :
    finish s i e ≠ .refused r := by
  cases e <;> simp [finish, raise]

@[simp] theorem finish_ok (s u : State) (i : Instr) :
    finish s i (.ok u) = .next u.advance := rfl

@[simp] theorem finish_error (s : State) (i : Instr) (c : Cause) :
    finish s i (.error c) = .fault (exceptionFault s (some (encode i)) c) := rfl

/-- The CP1 guard lets an effect through exactly when CP1_USABLE is true. -/
theorem ifCp1Usable_ok (s u : State) (e : Except Cause State) :
    ifCp1Usable s e = .ok u ↔ s.params.cp1Usable = true ∧ e = .ok u := by
  unfold ifCp1Usable; split <;> simp_all

theorem ifCp1Usable_error (s : State) (e : Except Cause State) (c : Cause) :
    ifCp1Usable s e = .error c ↔
      (s.params.cp1Usable = false ∧ c = coprocessorUnusable) ∨
        (s.params.cp1Usable = true ∧ e = .error c) := by
  grind [ifCp1Usable]

/-- What a load does with what it read. -/
theorem mapRead_ok {α : Type} (e : Except Cause α) (g : α → State) (u : State) :
    e.map g = .ok u ↔ ∃ a, e = .ok a ∧ u = g a := by
  cases e <;> simp [Except.map, eq_comm]

theorem mapRead_error {α : Type} (e : Except Cause α) (g : α → State) (c : Cause) :
    e.map g = .error c ↔ e = .error c := by
  cases e <;> simp [Except.map]

/-- A control transfer completes only outside a delay slot. -/
theorem unlessInDelaySlot_next (s t : State) (r : Result) :
    unlessInDelaySlot s r = .next t ↔ s.ds = false ∧ r = .next t := by
  unfold unlessInDelaySlot; split <;> simp_all

theorem unlessInDelaySlot_fault (s : State) (r : Result) (f : Fault) :
    unlessInDelaySlot s r = .fault f ↔
      (s.ds = true ∧ f = .controlTransferInDelaySlot) ∨ (s.ds = false ∧ r = .fault f) := by
  grind [unlessInDelaySlot]

/-- A conditional branch completes exactly outside a delay slot. -/
theorem conditionalBranch_next (s t : State) (taken : Bool) (offset : Imm) :
    conditionalBranch s taken offset = .next t ↔
      s.ds = false ∧
        t = if taken then s.branchTo (branchTarget s.pc offset) else s.noBranch := by
  rw [conditionalBranch, unlessInDelaySlot_next, Host.Outcome.next.injEq]
  exact and_congr_right fun _ => eq_comm

theorem conditionalBranch_fault (s : State) (taken : Bool) (offset : Imm) (f : Fault) :
    conditionalBranch s taken offset = .fault f ↔
      s.ds = true ∧ f = .controlTransferInDelaySlot := by
  simp [conditionalBranch, unlessInDelaySlot_fault]

/-! ## Data accesses -/

/-- A word is specified exactly when its four bytes are. -/
theorem Memory.word?_isSome (m : Memory) (e : Endian) (a : Word) :
    (m.word? e a).isSome ↔ ∀ c ∈ wordAddresses a, (m.read c).isSome := by
  unfold Memory.word? wordAddresses
  simp only [List.forall_mem_cons, List.not_mem_nil, false_imp_iff, implies_true, and_true]
  cases m.read a.toNat <;> cases m.read (a + 1#32).toNat <;> cases m.read (a + 2#32).toNat <;>
    cases m.read (a + 3#32).toNat <;> simp

/-- A word whose four bytes are specified. -/
theorem Memory.word?_of_read (m : Memory) (e : Endian) (a : Word) (b0 b1 b2 b3 : Byte)
    (h0 : m.read a.toNat = some b0) (h1 : m.read (a + 1#32).toNat = some b1)
    (h2 : m.read (a + 2#32).toNat = some b2) (h3 : m.read (a + 3#32).toNat = some b3) :
    m.word? e a = some (assembleWord e b0 b1 b2 b3) := by
  simp only [Memory.word?, h0, h1, h2, h3, Option.bind_some, Option.map_some]

/-- A word with an unspecified byte. -/
theorem Memory.word?_none (m : Memory) (e : Endian) (a : Word) (c : Nat) (hc : c ∈ wordAddresses a)
    (h : m.read c = none) : m.word? e a = none := by
  rw [← Option.not_isSome_iff_eq_none, Memory.word?_isSome]
  intro hs
  simpa [h] using hs c hc

@[simp] theorem loaded_some {α : Type} (f : α → Word) (v : α) : loaded f (some v) = .holds (f v) := rfl

@[simp] theorem loaded_none {α : Type} (f : α → Word) : loaded f none = .unspecified := rfl

theorem memRead1_ok (s : State) (a : Word) (r : Option Byte) :
    memRead1 s a = .ok r ↔ memCheck s a .byte .load = none ∧ r = s.mem.read a.toNat := by
  grind [memRead1]

theorem memRead1_error (s : State) (a : Word) (c : Cause) :
    memRead1 s a = .error c ↔
      ∃ name, memCheck s a .byte .load = some name ∧ c = accessCause name .load a := by
  grind [memRead1]

theorem memRead4_ok (s : State) (a : Word) (r : Option Word) :
    memRead4 s a = .ok r ↔
      wordAligned a = true ∧ memCheck s a .word .load = none ∧ r = s.mem.word? s.params.endian a := by
  grind [memRead4]

theorem memRead4_error (s : State) (a : Word) (c : Cause) :
    memRead4 s a = .error c ↔
      (wordAligned a = false ∧ c = accessCause .addressError .load a) ∨
        (wordAligned a = true ∧
          ∃ name, memCheck s a .word .load = some name ∧ c = accessCause name .load a) := by
  grind [memRead4]

theorem memWrite1_ok (s t : State) (a : Word) (b : Byte) :
    memWrite1 s a b = .ok t ↔ memCheck s a .byte .store = none ∧ t = s.storeByte a b := by
  grind [memWrite1]

theorem memWrite1_error (s : State) (a : Word) (b : Byte) (c : Cause) :
    memWrite1 s a b = .error c ↔
      ∃ name, memCheck s a .byte .store = some name ∧ c = accessCause name .store a := by
  grind [memWrite1]

theorem memWrite4_ok (s t : State) (a v : Word) :
    memWrite4 s a v = .ok t ↔
      wordAligned a = true ∧ memCheck s a .word .store = none ∧ t = s.storeBytes a v := by
  grind [memWrite4]

theorem memWrite4_error (s : State) (a v : Word) (c : Cause) :
    memWrite4 s a v = .error c ↔
      (wordAligned a = false ∧ c = accessCause .addressError .store a) ∨
        (wordAligned a = true ∧
          ∃ name, memCheck s a .word .store = some name ∧ c = accessCause name .store a) := by
  grind [memWrite4]

/-! ## What copies and floating-point results leave in a register -/

@[simp] theorem SpecialReg.contents_holds (v : Word) : (SpecialReg.holds v).contents = .holds v := rfl

@[simp] theorem SpecialReg.contents_unspecified : SpecialReg.unspecified.contents = .unspecified := rfl

@[simp] theorem FpResult.contents_bits (w : Word) : (FpResult.bits w).contents = .holds w := rfl

@[simp] theorem FpResult.contents_someNaN : FpResult.someNaN.contents = .someNaN := rfl

/-- FPFinish writes exactly when no condition raises (41_floating_point.md R122). -/
theorem fpFinish_ok (s t : State) (fd : FReg) (r : FpResult × FpFacts) :
    fpFinish s fd r = .ok t ↔
      fpRaised s.params r.2 = none ∧ t = s.setFpr fd r.1.contents := by
  grind [fpFinish]

theorem fpFinish_error (s : State) (fd : FReg) (r : FpResult × FpFacts) (c : Cause) :
    fpFinish s fd r = .error c ↔ ∃ k, fpRaised s.params r.2 = some k ∧ c = fpCause k := by
  grind [fpFinish]

/-! ## Fetch and step -/

/-- A fetch succeeds exactly at an aligned `pc` that MemCheck admits, outside WRITTEN, with four specified bytes
(20_memory.md R48, R51). -/
theorem fetchWord_ok (s : State) (w : Word) :
    fetchWord s = .ok w ↔
      wordAligned s.pc = true ∧ memCheck s s.pc .word .fetch = none ∧
        (∀ a ∈ wordAddresses s.pc, a ∉ s.written) ∧
          s.mem.word? s.params.endian s.pc = some w := by
  unfold fetchWord
  split
  · split
    · simp_all
    · split
      · rename_i h
        simp only [List.any_eq_true, List.contains_iff_mem] at h
        obtain ⟨a, h1, h2⟩ := h
        simp only [reduceCtorEq, false_iff]
        exact fun h => h.2.2.1 a h1 h2
      · rename_i h
        simp only [List.any_eq_true, List.contains_iff_mem, not_exists, not_and] at h
        split <;> simp_all
  · simp_all

theorem fetchInstr_ok (s : State) (i : Instr) :
    fetchInstr s = .ok i ↔ ∃ w, fetchWord s = .ok w ∧ decode w = .ok i := by
  unfold fetchInstr
  split
  · simp_all
  · split <;> simp_all

/-- A step completes exactly when the fetched instruction completes. -/
theorem step_next (s t : State) :
    step s = .next t ↔ ∃ i, fetchInstr s = .ok i ∧ exec i s = .next t := by
  unfold step
  split <;> simp_all

/-- A step faults in its fetch or in its instruction. -/
theorem step_fault (s : State) (f : Fault) :
    step s = .fault f ↔
      fetchInstr s = .error f ∨ ∃ i, fetchInstr s = .ok i ∧ exec i s = .fault f := by
  unfold step
  split <;> simp_all

theorem step_refused (s : State) (r : Refusal) :
    step s = .refused r ↔ ∃ i, fetchInstr s = .ok i ∧ exec i s = .refused r := by
  unfold step
  split <;> simp_all

end Sys2Proof.Machine
end

