-- ==== Sys2Proof/Laws/PerInstr.lean ====
section
/-! SUPPORT. One lemma for each instruction: its word has its row's mnemonic, mask and pattern (30_encoding.md
R70, R80). -/

namespace Sys2Proof.Laws.RowMatch

/-- The word of `i` matches the row of the opcode table that bears its mnemonic. -/
def Statement (i : Instr) : Prop :=
  ∃ r ∈ opcodeTable, r.mnemonic = i.mnemonic ∧ encode i &&& r.mask = r.pattern

/-- A row, and its mask cut into the fields of the instruction's format. -/
theorem of_row {i : Instr} (r : OpcodeRow) (hr : r ∈ opcodeTable) (hn : r.mnemonic = i.mnemonic)
    (m : Word) (hm : r.mask = m) (hp : encode i &&& m = r.pattern) : Statement i :=
  ⟨r, hr, hn, by rw [hm, hp]⟩

theorem add (rd rs rt : Reg) : Statement (.add rd rs rt) :=
  of_row ⟨"ADD", 0xFC0007FF#32, 0x00000020#32⟩
    (by decide) rfl (encR 63#6 0#5 0#5 0#5 31#5 63#6) (by decide) (by simp [encode, encR_and]; decide)

theorem addi (rt rs : Reg) (imm : Imm) : Statement (.addi rt rs imm) :=
  of_row ⟨"ADDI", 0xFC000000#32, 0x20000000#32⟩
    (by decide) rfl (encI 63#6 0#5 0#5 0#16) (by decide) (by simp [encode, encI_and]; decide)

theorem addiu (rt rs : Reg) (imm : Imm) : Statement (.addiu rt rs imm) :=
  of_row ⟨"ADDIU", 0xFC000000#32, 0x24000000#32⟩
    (by decide) rfl (encI 63#6 0#5 0#5 0#16) (by decide) (by simp [encode, encI_and]; decide)

theorem addu (rd rs rt : Reg) : Statement (.addu rd rs rt) :=
  of_row ⟨"ADDU", 0xFC0007FF#32, 0x00000021#32⟩
    (by decide) rfl (encR 63#6 0#5 0#5 0#5 31#5 63#6) (by decide) (by simp [encode, encR_and]; decide)

theorem sub (rd rs rt : Reg) : Statement (.sub rd rs rt) :=
  of_row ⟨"SUB", 0xFC0007FF#32, 0x00000022#32⟩
    (by decide) rfl (encR 63#6 0#5 0#5 0#5 31#5 63#6) (by decide) (by simp [encode, encR_and]; decide)

theorem subu (rd rs rt : Reg) : Statement (.subu rd rs rt) :=
  of_row ⟨"SUBU", 0xFC0007FF#32, 0x00000023#32⟩
    (by decide) rfl (encR 63#6 0#5 0#5 0#5 31#5 63#6) (by decide) (by simp [encode, encR_and]; decide)

theorem slt (rd rs rt : Reg) : Statement (.slt rd rs rt) :=
  of_row ⟨"SLT", 0xFC0007FF#32, 0x0000002A#32⟩
    (by decide) rfl (encR 63#6 0#5 0#5 0#5 31#5 63#6) (by decide) (by simp [encode, encR_and]; decide)

theorem slti (rt rs : Reg) (imm : Imm) : Statement (.slti rt rs imm) :=
  of_row ⟨"SLTI", 0xFC000000#32, 0x28000000#32⟩
    (by decide) rfl (encI 63#6 0#5 0#5 0#16) (by decide) (by simp [encode, encI_and]; decide)

theorem sltiu (rt rs : Reg) (imm : Imm) : Statement (.sltiu rt rs imm) :=
  of_row ⟨"SLTIU", 0xFC000000#32, 0x2C000000#32⟩
    (by decide) rfl (encI 63#6 0#5 0#5 0#16) (by decide) (by simp [encode, encI_and]; decide)

theorem sltu (rd rs rt : Reg) : Statement (.sltu rd rs rt) :=
  of_row ⟨"SLTU", 0xFC0007FF#32, 0x0000002B#32⟩
    (by decide) rfl (encR 63#6 0#5 0#5 0#5 31#5 63#6) (by decide) (by simp [encode, encR_and]; decide)

theorem addS (fd fs ft : FReg) : Statement (.addS fd fs ft) :=
  of_row ⟨"ADD.S", 0xFFE0003F#32, 0x46000000#32⟩
    (by decide) rfl (encR 63#6 31#5 0#5 0#5 0#5 63#6) (by decide) (by simp [encode, encR_and]; decide)

theorem subS (fd fs ft : FReg) : Statement (.subS fd fs ft) :=
  of_row ⟨"SUB.S", 0xFFE0003F#32, 0x46000001#32⟩
    (by decide) rfl (encR 63#6 31#5 0#5 0#5 0#5 63#6) (by decide) (by simp [encode, encR_and]; decide)

theorem mulS (fd fs ft : FReg) : Statement (.mulS fd fs ft) :=
  of_row ⟨"MUL.S", 0xFFE0003F#32, 0x46000002#32⟩
    (by decide) rfl (encR 63#6 31#5 0#5 0#5 0#5 63#6) (by decide) (by simp [encode, encR_and]; decide)

theorem divS (fd fs ft : FReg) : Statement (.divS fd fs ft) :=
  of_row ⟨"DIV.S", 0xFFE0003F#32, 0x46000003#32⟩
    (by decide) rfl (encR 63#6 31#5 0#5 0#5 0#5 63#6) (by decide) (by simp [encode, encR_and]; decide)

theorem movS (fd fs : FReg) : Statement (.movS fd fs) :=
  of_row ⟨"MOV.S", 0xFFFF003F#32, 0x46000006#32⟩
    (by decide) rfl (encR 63#6 31#5 31#5 0#5 0#5 63#6) (by decide) (by simp [encode, encR_and]; decide)

theorem negS (fd fs : FReg) : Statement (.negS fd fs) :=
  of_row ⟨"NEG.S", 0xFFFF003F#32, 0x46000007#32⟩
    (by decide) rfl (encR 63#6 31#5 31#5 0#5 0#5 63#6) (by decide) (by simp [encode, encR_and]; decide)

theorem mfc1 (rt : Reg) (fs : FReg) : Statement (.mfc1 rt fs) :=
  of_row ⟨"MFC1", 0xFFE007FF#32, 0x44000000#32⟩
    (by decide) rfl (encR 63#6 31#5 0#5 0#5 31#5 63#6) (by decide) (by simp [encode, encR_and]; decide)

theorem mtc1 (rt : Reg) (fs : FReg) : Statement (.mtc1 rt fs) :=
  of_row ⟨"MTC1", 0xFFE007FF#32, 0x44800000#32⟩
    (by decide) rfl (encR 63#6 31#5 0#5 0#5 31#5 63#6) (by decide) (by simp [encode, encR_and]; decide)

theorem and (rd rs rt : Reg) : Statement (.and rd rs rt) :=
  of_row ⟨"AND", 0xFC0007FF#32, 0x00000024#32⟩
    (by decide) rfl (encR 63#6 0#5 0#5 0#5 31#5 63#6) (by decide) (by simp [encode, encR_and]; decide)

theorem andi (rt rs : Reg) (imm : Imm) : Statement (.andi rt rs imm) :=
  of_row ⟨"ANDI", 0xFC000000#32, 0x30000000#32⟩
    (by decide) rfl (encI 63#6 0#5 0#5 0#16) (by decide) (by simp [encode, encI_and]; decide)

theorem or (rd rs rt : Reg) : Statement (.or rd rs rt) :=
  of_row ⟨"OR", 0xFC0007FF#32, 0x00000025#32⟩
    (by decide) rfl (encR 63#6 0#5 0#5 0#5 31#5 63#6) (by decide) (by simp [encode, encR_and]; decide)

theorem ori (rt rs : Reg) (imm : Imm) : Statement (.ori rt rs imm) :=
  of_row ⟨"ORI", 0xFC000000#32, 0x34000000#32⟩
    (by decide) rfl (encI 63#6 0#5 0#5 0#16) (by decide) (by simp [encode, encI_and]; decide)

theorem xor (rd rs rt : Reg) : Statement (.xor rd rs rt) :=
  of_row ⟨"XOR", 0xFC0007FF#32, 0x00000026#32⟩
    (by decide) rfl (encR 63#6 0#5 0#5 0#5 31#5 63#6) (by decide) (by simp [encode, encR_and]; decide)

theorem xori (rt rs : Reg) (imm : Imm) : Statement (.xori rt rs imm) :=
  of_row ⟨"XORI", 0xFC000000#32, 0x38000000#32⟩
    (by decide) rfl (encI 63#6 0#5 0#5 0#16) (by decide) (by simp [encode, encI_and]; decide)

theorem nor (rd rs rt : Reg) : Statement (.nor rd rs rt) :=
  of_row ⟨"NOR", 0xFC0007FF#32, 0x00000027#32⟩
    (by decide) rfl (encR 63#6 0#5 0#5 0#5 31#5 63#6) (by decide) (by simp [encode, encR_and]; decide)

theorem lui (rt : Reg) (imm : Imm) : Statement (.lui rt imm) :=
  of_row ⟨"LUI", 0xFFE00000#32, 0x3C000000#32⟩
    (by decide) rfl (encI 63#6 31#5 0#5 0#16) (by decide) (by simp [encode, encI_and]; decide)

theorem beq (rs rt : Reg) (offset : Imm) : Statement (.beq rs rt offset) :=
  of_row ⟨"BEQ", 0xFC000000#32, 0x10000000#32⟩
    (by decide) rfl (encI 63#6 0#5 0#5 0#16) (by decide) (by simp [encode, encI_and]; decide)

theorem bne (rs rt : Reg) (offset : Imm) : Statement (.bne rs rt offset) :=
  of_row ⟨"BNE", 0xFC000000#32, 0x14000000#32⟩
    (by decide) rfl (encI 63#6 0#5 0#5 0#16) (by decide) (by simp [encode, encI_and]; decide)

theorem bgez (rs : Reg) (offset : Imm) : Statement (.bgez rs offset) :=
  of_row ⟨"BGEZ", 0xFC1F0000#32, 0x04010000#32⟩
    (by decide) rfl (encI 63#6 0#5 31#5 0#16) (by decide) (by simp [encode, encI_and]; decide)

theorem bgtz (rs : Reg) (offset : Imm) : Statement (.bgtz rs offset) :=
  of_row ⟨"BGTZ", 0xFC1F0000#32, 0x1C000000#32⟩
    (by decide) rfl (encI 63#6 0#5 31#5 0#16) (by decide) (by simp [encode, encI_and]; decide)

theorem blez (rs : Reg) (offset : Imm) : Statement (.blez rs offset) :=
  of_row ⟨"BLEZ", 0xFC1F0000#32, 0x18000000#32⟩
    (by decide) rfl (encI 63#6 0#5 31#5 0#16) (by decide) (by simp [encode, encI_and]; decide)

theorem bltz (rs : Reg) (offset : Imm) : Statement (.bltz rs offset) :=
  of_row ⟨"BLTZ", 0xFC1F0000#32, 0x04000000#32⟩
    (by decide) rfl (encI 63#6 0#5 31#5 0#16) (by decide) (by simp [encode, encI_and]; decide)

theorem j (index : BitVec 26) : Statement (.j index) :=
  of_row ⟨"J", 0xFC000000#32, 0x08000000#32⟩
    (by decide) rfl (encJ 63#6 0#26) (by decide) (by simp [encode, encJ_and]; decide)

theorem jal (index : BitVec 26) : Statement (.jal index) :=
  of_row ⟨"JAL", 0xFC000000#32, 0x0C000000#32⟩
    (by decide) rfl (encJ 63#6 0#26) (by decide) (by simp [encode, encJ_and]; decide)

theorem jalr (rd rs : Reg) : Statement (.jalr rd rs) :=
  of_row ⟨"JALR", 0xFC1F07FF#32, 0x00000009#32⟩
    (by decide) rfl (encR 63#6 0#5 31#5 0#5 31#5 63#6) (by decide) (by simp [encode, encR_and]; decide)

theorem jr (rs : Reg) : Statement (.jr rs) :=
  of_row ⟨"JR", 0xFC1FFFFF#32, 0x00000008#32⟩
    (by decide) rfl (encR 63#6 0#5 31#5 31#5 31#5 63#6) (by decide) (by simp [encode, encR_and]; decide)

theorem mult (rs rt : Reg) : Statement (.mult rs rt) :=
  of_row ⟨"MULT", 0xFC00FFFF#32, 0x00000018#32⟩
    (by decide) rfl (encR 63#6 0#5 0#5 31#5 31#5 63#6) (by decide) (by simp [encode, encR_and]; decide)

theorem multu (rs rt : Reg) : Statement (.multu rs rt) :=
  of_row ⟨"MULTU", 0xFC00FFFF#32, 0x00000019#32⟩
    (by decide) rfl (encR 63#6 0#5 0#5 31#5 31#5 63#6) (by decide) (by simp [encode, encR_and]; decide)

theorem mul (rd rs rt : Reg) : Statement (.mul rd rs rt) :=
  of_row ⟨"MUL", 0xFC0007FF#32, 0x70000002#32⟩
    (by decide) rfl (encR 63#6 0#5 0#5 0#5 31#5 63#6) (by decide) (by simp [encode, encR_and]; decide)

theorem div (rs rt : Reg) : Statement (.div rs rt) :=
  of_row ⟨"DIV", 0xFC00FFFF#32, 0x0000001A#32⟩
    (by decide) rfl (encR 63#6 0#5 0#5 31#5 31#5 63#6) (by decide) (by simp [encode, encR_and]; decide)

theorem divu (rs rt : Reg) : Statement (.divu rs rt) :=
  of_row ⟨"DIVU", 0xFC00FFFF#32, 0x0000001B#32⟩
    (by decide) rfl (encR 63#6 0#5 0#5 31#5 31#5 63#6) (by decide) (by simp [encode, encR_and]; decide)

theorem mfhi (rd : Reg) : Statement (.mfhi rd) :=
  of_row ⟨"MFHI", 0xFFFF07FF#32, 0x00000010#32⟩
    (by decide) rfl (encR 63#6 31#5 31#5 0#5 31#5 63#6) (by decide) (by simp [encode, encR_and]; decide)

theorem mflo (rd : Reg) : Statement (.mflo rd) :=
  of_row ⟨"MFLO", 0xFFFF07FF#32, 0x00000012#32⟩
    (by decide) rfl (encR 63#6 31#5 31#5 0#5 31#5 63#6) (by decide) (by simp [encode, encR_and]; decide)

theorem lb (rt : Reg) (offset : Imm) (base : Reg) : Statement (.lb rt offset base) :=
  of_row ⟨"LB", 0xFC000000#32, 0x80000000#32⟩
    (by decide) rfl (encI 63#6 0#5 0#5 0#16) (by decide) (by simp [encode, encI_and]; decide)

theorem lbu (rt : Reg) (offset : Imm) (base : Reg) : Statement (.lbu rt offset base) :=
  of_row ⟨"LBU", 0xFC000000#32, 0x90000000#32⟩
    (by decide) rfl (encI 63#6 0#5 0#5 0#16) (by decide) (by simp [encode, encI_and]; decide)

theorem lw (rt : Reg) (offset : Imm) (base : Reg) : Statement (.lw rt offset base) :=
  of_row ⟨"LW", 0xFC000000#32, 0x8C000000#32⟩
    (by decide) rfl (encI 63#6 0#5 0#5 0#16) (by decide) (by simp [encode, encI_and]; decide)

theorem sb (rt : Reg) (offset : Imm) (base : Reg) : Statement (.sb rt offset base) :=
  of_row ⟨"SB", 0xFC000000#32, 0xA0000000#32⟩
    (by decide) rfl (encI 63#6 0#5 0#5 0#16) (by decide) (by simp [encode, encI_and]; decide)

theorem sw (rt : Reg) (offset : Imm) (base : Reg) : Statement (.sw rt offset base) :=
  of_row ⟨"SW", 0xFC000000#32, 0xAC000000#32⟩
    (by decide) rfl (encI 63#6 0#5 0#5 0#16) (by decide) (by simp [encode, encI_and]; decide)

theorem lwc1 (ft : FReg) (offset : Imm) (base : Reg) : Statement (.lwc1 ft offset base) :=
  of_row ⟨"LWC1", 0xFC000000#32, 0xC4000000#32⟩
    (by decide) rfl (encI 63#6 0#5 0#5 0#16) (by decide) (by simp [encode, encI_and]; decide)

theorem swc1 (ft : FReg) (offset : Imm) (base : Reg) : Statement (.swc1 ft offset base) :=
  of_row ⟨"SWC1", 0xFC000000#32, 0xE4000000#32⟩
    (by decide) rfl (encI 63#6 0#5 0#5 0#16) (by decide) (by simp [encode, encI_and]; decide)

theorem movn (rd rs rt : Reg) : Statement (.movn rd rs rt) :=
  of_row ⟨"MOVN", 0xFC0007FF#32, 0x0000000B#32⟩
    (by decide) rfl (encR 63#6 0#5 0#5 0#5 31#5 63#6) (by decide) (by simp [encode, encR_and]; decide)

theorem movz (rd rs rt : Reg) : Statement (.movz rd rs rt) :=
  of_row ⟨"MOVZ", 0xFC0007FF#32, 0x0000000A#32⟩
    (by decide) rfl (encR 63#6 0#5 0#5 0#5 31#5 63#6) (by decide) (by simp [encode, encR_and]; decide)

theorem sll (rd rt : Reg) (sa : BitVec 5) : Statement (.sll rd rt sa) :=
  of_row ⟨"SLL", 0xFFE0003F#32, 0x00000000#32⟩
    (by decide) rfl (encR 63#6 31#5 0#5 0#5 0#5 63#6) (by decide) (by simp [encode, encR_and]; decide)

theorem sllv (rd rt rs : Reg) : Statement (.sllv rd rt rs) :=
  of_row ⟨"SLLV", 0xFC0007FF#32, 0x00000004#32⟩
    (by decide) rfl (encR 63#6 0#5 0#5 0#5 31#5 63#6) (by decide) (by simp [encode, encR_and]; decide)

theorem sra (rd rt : Reg) (sa : BitVec 5) : Statement (.sra rd rt sa) :=
  of_row ⟨"SRA", 0xFFE0003F#32, 0x00000003#32⟩
    (by decide) rfl (encR 63#6 31#5 0#5 0#5 0#5 63#6) (by decide) (by simp [encode, encR_and]; decide)

theorem srav (rd rt rs : Reg) : Statement (.srav rd rt rs) :=
  of_row ⟨"SRAV", 0xFC0007FF#32, 0x00000007#32⟩
    (by decide) rfl (encR 63#6 0#5 0#5 0#5 31#5 63#6) (by decide) (by simp [encode, encR_and]; decide)

theorem srl (rd rt : Reg) (sa : BitVec 5) : Statement (.srl rd rt sa) :=
  of_row ⟨"SRL", 0xFFE0003F#32, 0x00000002#32⟩
    (by decide) rfl (encR 63#6 31#5 0#5 0#5 0#5 63#6) (by decide) (by simp [encode, encR_and]; decide)

theorem srlv (rd rt rs : Reg) : Statement (.srlv rd rt rs) :=
  of_row ⟨"SRLV", 0xFC0007FF#32, 0x00000006#32⟩
    (by decide) rfl (encR 63#6 0#5 0#5 0#5 31#5 63#6) (by decide) (by simp [encode, encR_and]; decide)

theorem syscall (code : BitVec 20) : Statement (.syscall code) := by
  refine of_row ⟨"SYSCALL", 0xFC00003F#32, 0x0000000C#32⟩ (by decide) rfl
    (63#6 ++ 0#20 ++ 63#6 : BitVec (6 + 20 + 6)) (by decide) ?_
  refine (append_and_append (0b000000#6 ++ code) (63#6 ++ 0#20) 0b001100#6 63#6).trans ?_
  rw [append_and_append 0b000000#6, BitVec.and_zero]
  decide

end Sys2Proof.Laws.RowMatch
end

