-- ==== Sys2Proof/Tests/Slice0.lean ====
section
/-! SUPPORT. The model's own tests. Every expected result is copied from spec/95_test_vectors.md (V<n>, P<n>) or from the
Example line of an instruction's rule; every word is written out from the pattern of 30_encoding.md R80. -/

namespace Sys2Proof.Tests

open Machine

/-! ## Helpers -/

/-- The start of a run with these GPRs. -/
def regs (l : List (Reg × Word)) : State := l.foldl (fun s p => s.setX p.1 p.2) State.reset

/-- The start of a run with these FPRs, and 0x11111111 in FPR 2 (95_test_vectors.md 3.11). -/
def fregs (l : List (FReg × Word)) : State :=
  l.foldl (fun s p => s.setF p.1 p.2) (State.reset.setF 2 0x11111111)

/-- A state with these bytes in its launch image, from this address on. -/
def withBytes (s : State) (a : Nat) (l : List Byte) : State :=
  { s with mem := (l.zipIdx a).foldl (fun m p => m.write p.2 p.1) s.mem }

/-- One step of the instruction whose word is `w`, stored at `pc`. -/
def runWord (s : State) (w : Nat) : Result := step (s.withFetchWord 32 w)

/-- What GPR `n` holds after the step. -/
def gprAfter (r : Result) (n : Reg) : Option Contents :=
  match r with
  | .next t => some (t.gprAt n)
  | _ => none

/-- What FPR `n` holds after the step. -/
def fprAfter (r : Result) (n : FReg) : Option Contents :=
  match r with
  | .next t => some (t.fprAt n)
  | _ => none

/-- The value, if there is one. -/
def heldValue : Option Contents → Option Word
  | some (.holds v) => some v
  | _ => none

def xAfter (r : Result) (n : Reg) : Option Word := heldValue (gprAfter r n)

def fAfter (r : Result) (n : FReg) : Option Word := heldValue (fprAfter r n)

def hiLoAfter (r : Result) : Option (SpecialReg × SpecialReg) :=
  match r with
  | .next t => some (t.hi, t.lo)
  | _ => none

/-- `pc`, `npc` and `ds` after the step. -/
def flowAfter (r : Result) : Option (Word × Word × Bool) :=
  match r with
  | .next t => some (t.pc, t.npc, t.ds)
  | _ => none

/-- The bytes of memory after the step. -/
def bytesAfter (r : Result) (a n : Nat) : Option (List (Option Byte)) :=
  match r with
  | .next t => some ((List.range n).map fun k => t.mem.read (a + k))
  | _ => none

/-- The exception record, if the step raised. -/
def recordOf (r : Result) : Option ExceptionRecord :=
  match r with
  | .fault (.exception rec) => some rec
  | _ => none

def faultOf (r : Result) : Option Fault :=
  match r with
  | .fault f => some f
  | _ => none

def nameOf (r : Result) : Option ExceptionName := (recordOf r).map (·.name)

/-- Vectors of one instruction that writes a GPR: word, GPRs before, the GPR and its value after. -/
def gprVectors (l : List (Nat × List (Reg × Word) × Reg × Word)) : Bool :=
  l.all fun v => xAfter (runWord (regs v.2.1) v.1) v.2.2.1 == some v.2.2.2

/-- Vectors of one branch: word, `pc`, GPRs before, `npc` after, with `ds` set and `pc` advanced by 4. -/
def branchVectors (l : List (Nat × Word × List (Reg × Word) × Word)) : Bool :=
  l.all fun v =>
    flowAfter (runWord { regs v.2.2.1 with pc := v.2.1, npc := v.2.1 + 4 } v.1) ==
      some (v.2.1 + 4, v.2.2.2, true)

/-! ## Well-formedness -/

theorem test_wellFormed_refuses_jalr_same : (Instr.jalr 4 4).wellFormed = false := by decide

theorem test_wellFormed_refuses_misaligned_entry :
    ({ Params.reset with entryPc := 0x00400002 } : Params).wellFormed = false := by decide

theorem test_wellFormed_accepts_reset_entry : Params.reset.wellFormed = true := by decide

theorem test_wellFormed_accepts_jalr : (Instr.jalr 31 4).wellFormed = true := by decide

/-! ## Decode: every constructor, its word written out bit by bit from R80 -/

def decodesTo (l : List (Nat × Instr)) : Bool :=
  l.all fun p => decodeTableWord 32 p.1 == some p.2

theorem test_decode_integer : decodesTo
    [(0b000000_00001_00010_00011_00000_100000, .add 3 1 2),
     (0b001000_00001_00010_1111111111111111, .addi 2 1 0xFFFF),
     (0b001001_00001_00010_1000000000000000, .addiu 2 1 0x8000),
     (0b000000_00001_00010_00011_00000_100001, .addu 3 1 2),
     (0b000000_00001_00010_00011_00000_100010, .sub 3 1 2),
     (0b000000_00001_00010_00011_00000_100011, .subu 3 1 2),
     (0b000000_00001_00010_00011_00000_101010, .slt 3 1 2),
     (0b001010_00001_00010_1111111111111111, .slti 2 1 0xFFFF),
     (0b001011_00001_00010_1111111111111111, .sltiu 2 1 0xFFFF),
     (0b000000_00001_00010_00011_00000_101011, .sltu 3 1 2)] = true := by decide

theorem test_decode_float : decodesTo
    [(0b010001_10000_00001_00000_00010_000000, .addS 2 0 1),
     (0b010001_10000_00001_00000_00010_000001, .subS 2 0 1),
     (0b010001_10000_00001_00000_00010_000010, .mulS 2 0 1),
     (0b010001_10000_00001_00000_00010_000011, .divS 2 0 1),
     (0b010001_10000_00000_00000_00010_000110, .movS 2 0),
     (0b010001_10000_00000_00000_00010_000111, .negS 2 0),
     (0b010001_00000_01000_00010_00000000000, .mfc1 8 2),
     (0b010001_00100_01000_00010_00000000000, .mtc1 8 2)] = true := by decide

theorem test_decode_logical : decodesTo
    [(0b000000_00001_00010_00011_00000_100100, .and 3 1 2),
     (0b001100_00001_00010_1111111100000000, .andi 2 1 0xFF00),
     (0b000000_00001_00010_00011_00000_100101, .or 3 1 2),
     (0b001101_00001_00010_1000000000000000, .ori 2 1 0x8000),
     (0b000000_00001_00010_00011_00000_100110, .xor 3 1 2),
     (0b001110_00001_00010_1111111111111111, .xori 2 1 0xFFFF),
     (0b000000_00001_00010_00011_00000_100111, .nor 3 1 2),
     (0b001111_00000_00010_1000000000000000, .lui 2 0x8000)] = true := by decide

theorem test_decode_branch : decodesTo
    [(0b000100_00001_00010_1111111111111110, .beq 1 2 0xFFFE),
     (0b000101_00001_00010_0000000000000011, .bne 1 2 3),
     (0b000001_00001_00001_0000000000000010, .bgez 1 2),
     (0b000111_00001_00000_0000000000000010, .bgtz 1 2),
     (0b000110_00001_00000_0000000000000010, .blez 1 2),
     (0b000001_00001_00000_0000000000000010, .bltz 1 2),
     (0b000010_00001000000000000000010000, .j 0x0200010),
     (0b000011_00000100000000000001000000, .jal 0x0100040),
     (0b000000_00100_00000_00101_00000_001001, .jalr 5 4),
     (0b000000_11111_00000_00000_00000_001000, .jr 31)] = true := by decide

theorem test_decode_muldiv : decodesTo
    [(0b000000_00001_00010_00000_00000_011000, .mult 1 2),
     (0b000000_00001_00010_00000_00000_011001, .multu 1 2),
     (0b011100_00001_00010_00011_00000_000010, .mul 3 1 2),
     (0b000000_00001_00010_00000_00000_011010, .div 1 2),
     (0b000000_00001_00010_00000_00000_011011, .divu 1 2),
     (0b000000_00000_00000_00011_00000_010000, .mfhi 3),
     (0b000000_00000_00000_00011_00000_010010, .mflo 3)] = true := by decide

theorem test_decode_loadstore : decodesTo
    [(0b100000_00001_00010_0000000000000011, .lb 2 3 1),
     (0b100100_00001_00010_0000000000000011, .lbu 2 3 1),
     (0b100011_00001_00010_1111111111111100, .lw 2 0xFFFC 1),
     (0b101000_00001_00010_0000000000000001, .sb 2 1 1),
     (0b101011_00001_00010_0000000000001000, .sw 2 8 1),
     (0b110001_00001_00010_0000000000000100, .lwc1 2 4 1),
     (0b111001_00001_00010_0000000000000100, .swc1 2 4 1)] = true := by decide

theorem test_decode_move_shift_system : decodesTo
    [(0b000000_00001_00010_00011_00000_001011, .movn 3 1 2),
     (0b000000_00001_00010_00011_00000_001010, .movz 3 1 2),
     (0b000000_00000_00010_00011_00100_000000, .sll 3 2 4),
     (0b000000_00001_00010_00011_00000_000100, .sllv 3 2 1),
     (0b000000_00000_00010_00011_11111_000011, .sra 3 2 31),
     (0b000000_00001_00010_00011_00000_000111, .srav 3 2 1),
     (0b000000_00000_00010_00011_00100_000010, .srl 3 2 4),
     (0b000000_00001_00010_00011_00000_000110, .srlv 3 2 1),
     (0b000000_00010010001101000101_001100, .syscall 0x12345)] = true := by decide

/-- V265 to V286: words that are no instruction. -/
theorem test_decode_reserved :
    ([0x42000018, 0x4200001F, 0x42000020, 0x40000000, 0x00000001, 0x0000000D, 0x0000000F,
      0x00000034, 0x00000011, 0x00000013, 0x00221860, 0x00200000, 0x00200002, 0x00000046,
      0x03E00408, 0x03E10008, 0x0080FC09, 0x00810009, 0x00200010, 0x0022081A, 0x00220058,
      0x04110000, 0x04020000, 0x1C010000, 0x18010000, 0x3C200000, 0x50000000, 0x70000000,
      0x70000020, 0x70221842, 0x46200000, 0x46C00000, 0x46000004, 0x46000005, 0x46000032,
      0x46010086, 0x46010087, 0x44000001, 0x44800040, 0x44400000, 0x45000000, 0x84000000,
      0x94000000, 0xA4000000, 0x88000000, 0xC0000000, 0xE0000000, 0xBC000000, 0xD4000000,
      0xFFFFFFFF].all fun w => decodeTableWord 32 w == none) = true := by decide

/-! ## Integer arithmetic (V1 to V44) -/

theorem test_add : gprVectors
    [(0x00221820, [(1, 5), (2, 0xFFFFFFFE)], 3, 3),
     (0x00221820, [(1, 0x7FFFFFFF), (2, 0x80000000)], 3, 0xFFFFFFFF),
     (0x00210820, [(1, 0x3FFFFFFF)], 1, 0x7FFFFFFE),
     (0x00220020, [(1, 1), (2, 2)], 0, 0)] = true := by decide

theorem test_add_overflow :
    ([(0x00221820, 0x7FFFFFFF, 1), (0x00221820, 0x80000000, 0xFFFFFFFF),
      (0x00220020, 0x7FFFFFFF, 1)].all fun v =>
      nameOf (runWord (regs [(1, v.2.1), (2, v.2.2)]) v.1) == some .integerOverflow) = true := by
  decide

theorem test_addi : gprVectors
    [(0x2022FFFF, [], 2, 0xFFFFFFFF),
     (0x20228000, [], 2, 0xFFFF8000),
     (0x20227FFF, [(1, 0x7FFF8000)], 2, 0x7FFFFFFF)] = true := by decide

theorem test_addi_overflow :
    ([(0x20220001, 0x7FFFFFFF), (0x2022FFFF, 0x80000000), (0x20227FFF, 0x7FFF8001)].all fun v =>
      nameOf (runWord (regs [(1, v.2)]) v.1) == some .integerOverflow) = true := by decide

theorem test_addiu : gprVectors
    [(0x24220001, [(1, 0x7FFFFFFF)], 2, 0x80000000),
     (0x24228000, [(1, 0x00008000)], 2, 0),
     (0x2422FFFF, [], 2, 0xFFFFFFFF)] = true := by decide

theorem test_addu : gprVectors
    [(0x00221821, [(1, 0xFFFFFFFF), (2, 2)], 3, 1),
     (0x00221821, [(1, 0x7FFFFFFF), (2, 1)], 3, 0x80000000)] = true := by decide

theorem test_sub : gprVectors
    [(0x00221822, [(1, 3), (2, 5)], 3, 0xFFFFFFFE),
     (0x00221822, [(1, 0x80000000), (2, 0x80000000)], 3, 0)] = true := by decide

theorem test_sub_overflow :
    ([(0x80000000, 1), (0, 0x80000000), (0x7FFFFFFF, 0xFFFFFFFF)].all fun v =>
      nameOf (runWord (regs [(1, v.1), (2, v.2)]) 0x00221822) == some .integerOverflow) = true := by
  decide

theorem test_subu : gprVectors
    [(0x00221823, [(2, 1)], 3, 0xFFFFFFFF),
     (0x00221823, [(1, 0x80000000), (2, 1)], 3, 0x7FFFFFFF)] = true := by decide

theorem test_slt : gprVectors
    [(0x0022182A, [(1, 0xFFFFFFFF), (2, 1)], 3, 1),
     (0x0022182A, [(1, 1), (2, 0xFFFFFFFF), (3, 0xFFFFFFFF)], 3, 0),
     (0x0022182A, [(1, 0x80000000), (2, 0x7FFFFFFF)], 3, 1),
     (0x0022182A, [(1, 7), (2, 7), (3, 9)], 3, 0)] = true := by decide

theorem test_slti : gprVectors
    [(0x2822FFFF, [(1, 0xFFFFFFFE)], 2, 1),
     (0x28228000, [(1, 0x80000000)], 2, 1),
     (0x28228000, [(1, 0xFFFF8000), (2, 5)], 2, 0),
     (0x28227FFF, [(1, 0x7FFFFFFF), (2, 5)], 2, 0)] = true := by decide

theorem test_sltiu : gprVectors
    [(0x2C22FFFF, [(1, 0x80000000)], 2, 1),
     (0x2C22FFFF, [(1, 0xFFFFFFFF), (2, 5)], 2, 0),
     (0x2C228000, [(1, 0xFFFF7FFF)], 2, 1),
     (0x2C227FFF, [(1, 0x00008000), (2, 5)], 2, 0),
     (0x2C220001, [], 2, 1)] = true := by decide

theorem test_sltu : gprVectors
    [(0x0022182B, [(1, 1), (2, 0xFFFFFFFF)], 3, 1),
     (0x0022182B, [(1, 0xFFFFFFFF), (2, 1), (3, 5)], 3, 0),
     (0x0002182B, [(2, 0x80000000)], 3, 1)] = true := by decide

/-! ## Logical and LUI (V45 to V60) -/

theorem test_and : gprVectors
    [(0x00221824, [(1, 0xFF00FF00), (2, 0x0FF00FF0)], 3, 0x0F000F00)] = true := by decide

theorem test_andi : gprVectors
    [(0x3022FF00, [(1, 0x12345678)], 2, 0x00005600),
     (0x3022FFFF, [(1, 0xFFFFFFFF)], 2, 0x0000FFFF)] = true := by decide

theorem test_or : gprVectors
    [(0x00221825, [(1, 0xFF00FF00), (2, 0x0FF00FF0)], 3, 0xFFF0FFF0)] = true := by decide

theorem test_ori : gprVectors
    [(0x34228000, [(1, 0x12340000)], 2, 0x12348000)] = true := by decide

theorem test_xor : gprVectors
    [(0x00221826, [(1, 0xFF00FF00), (2, 0x0FF00FF0)], 3, 0xF0F0F0F0)] = true := by decide

theorem test_xori : gprVectors
    [(0x3822FFFF, [(1, 0x12345678)], 2, 0x1234A987)] = true := by decide

theorem test_nor : gprVectors
    [(0x00221827, [(1, 0xFF00FF00), (2, 0x0FF00FF0)], 3, 0x000F000F),
     (0x00001827, [], 3, 0xFFFFFFFF)] = true := by decide

theorem test_lui : gprVectors
    [(0x3C028000, [], 2, 0x80000000),
     (0x3C02FFFF, [(2, 0x0000FFFF)], 2, 0xFFFF0000)] = true := by decide

/-! ## Shifts (V61 to V79) -/

theorem test_sll : gprVectors
    [(0x00021900, [(2, 0xF000000F)], 3, 0x000000F0),
     (0x00021FC0, [(2, 0xF000000F)], 3, 0x80000000)] = true := by decide

theorem test_srl : gprVectors
    [(0x00021902, [(2, 0xF000000F)], 3, 0x0F000000),
     (0x00021FC2, [(2, 0xF000000F)], 3, 1)] = true := by decide

theorem test_sra : gprVectors
    [(0x00021903, [(2, 0xF000000F)], 3, 0xFF000000),
     (0x00021FC3, [(2, 0xF000000F)], 3, 0xFFFFFFFF),
     (0x00021FC3, [(2, 0x7FFFFFFF)], 3, 0)] = true := by decide

theorem test_sllv : gprVectors
    [(0x00221804, [(2, 0xF000000F), (1, 0x24)], 3, 0x000000F0),
     (0x00221804, [(2, 0xF000000F), (1, 0x20)], 3, 0xF000000F),
     (0x00221804, [(2, 1), (1, 0xFFFFFFFF)], 3, 0x80000000)] = true := by decide

theorem test_srlv : gprVectors
    [(0x00221806, [(2, 0xF000000F), (1, 0x24)], 3, 0x0F000000),
     (0x00221806, [(2, 0x80000000), (1, 0x3F)], 3, 1)] = true := by decide

theorem test_srav : gprVectors
    [(0x00221807, [(2, 0xF000000F), (1, 0x24)], 3, 0xFF000000),
     (0x00221807, [(2, 0x80000000), (1, 0x1F)], 3, 0xFFFFFFFF),
     (0x00221807, [(2, 0x80000000), (1, 0x20)], 3, 0x80000000)] = true := by decide

/-! ## Conditional moves (V80 to V86) -/

theorem test_movn : gprVectors
    [(0x0022180B, [(1, 0x2A), (2, 1), (3, 7)], 3, 0x2A),
     (0x0022180B, [(1, 0x2A), (3, 7)], 3, 7),
     (0x0022180B, [(1, 0x2A), (2, 0x80000000), (3, 7)], 3, 0x2A)] = true := by decide

theorem test_movz : gprVectors
    [(0x0022180A, [(1, 0x2A), (3, 7)], 3, 0x2A),
     (0x0022180A, [(1, 0x2A), (2, 1), (3, 7)], 3, 7)] = true := by decide

/-! ## Multiply and divide (V87 to V112) -/

/-- Vectors of MULT, MULTU, DIV, DIVU: word, x[1], x[2], HI and LO after. -/
def hiLoVectors (l : List (Nat × Word × Word × SpecialReg × SpecialReg)) : Bool :=
  l.all fun v =>
    hiLoAfter (runWord (regs [(1, v.2.1), (2, v.2.2.1)]) v.1) == some (v.2.2.2.1, v.2.2.2.2)

theorem test_mult : hiLoVectors
    [(0x00220018, 0xFFFFFFFE, 3, .holds 0xFFFFFFFF, .holds 0xFFFFFFFA),
     (0x00220018, 0x80000000, 0x80000000, .holds 0x40000000, .holds 0),
     (0x00220018, 0x80000000, 0xFFFFFFFF, .holds 0, .holds 0x80000000)] = true := by decide

theorem test_multu : hiLoVectors
    [(0x00220019, 0xFFFFFFFE, 3, .holds 2, .holds 0xFFFFFFFA),
     (0x00220019, 0xFFFFFFFF, 0xFFFFFFFF, .holds 0xFFFFFFFE, .holds 1)] = true := by decide

theorem test_div : hiLoVectors
    [(0x0022001A, 0xFFFFFFF9, 2, .holds 0xFFFFFFFF, .holds 0xFFFFFFFD),
     (0x0022001A, 7, 0xFFFFFFFE, .holds 1, .holds 0xFFFFFFFD),
     (0x0022001A, 0xFFFFFFF9, 0xFFFFFFFE, .holds 0xFFFFFFFF, .holds 3),
     (0x0022001A, 0x80000000, 1, .holds 0, .holds 0x80000000)] = true := by decide

theorem test_div_unspecified : hiLoVectors
    [(0x0022001A, 5, 0, .unspecified, .unspecified),
     (0x0022001A, 0x80000000, 0xFFFFFFFF, .unspecified, .unspecified)] = true := by decide

theorem test_divu : hiLoVectors
    [(0x0022001B, 0xFFFFFFF9, 2, .holds 1, .holds 0x7FFFFFFC),
     (0x0022001B, 0x80000000, 0xFFFFFFFF, .holds 0x80000000, .holds 0),
     (0x0022001B, 5, 0, .unspecified, .unspecified)] = true := by decide

theorem test_mul : gprVectors
    [(0x70221802, [(1, 0xFFFFFFFE), (2, 3)], 3, 0xFFFFFFFA),
     (0x70221802, [(1, 0x00010000), (2, 0x00010000)], 3, 0),
     (0x70221802, [(1, 0x7FFFFFFF), (2, 0x7FFFFFFF)], 3, 1)] = true := by decide

/-- V97: rd = 0, and HI and LO are unspecified all the same. -/
theorem test_mul_unspecifies :
    hiLoAfter (runWord ((regs [(1, 3), (2, 4)]).setHiLo (.holds 1) (.holds 2)) 0x70220002) =
      some (.unspecified, .unspecified) := by decide

theorem test_mfhi :
    xAfter (runWord (State.reset.setHiLo (.holds 0xFFFFFFFF) (.holds 0xFFFFFFFA)) 0x00001810) 3 =
      some 0xFFFFFFFF := by decide

theorem test_mflo :
    xAfter (runWord (State.reset.setHiLo (.holds 0xFFFFFFFF) (.holds 0xFFFFFFFA)) 0x00001812) 3 =
      some 0xFFFFFFFA := by decide

/-- V111, the draw treatment: x[3] becomes unspecified. -/
theorem test_mfhi_unspecified :
    gprAfter (runWord State.reset.unspecifyHiLo 0x00001810) 3 = some .unspecified := by decide

/-- 10_state.md R35: SUBU $4, $3, $3 of an unspecified x[3] draws twice. -/
theorem test_reads_of_unspecified :
    gprAfter (exec (.subu 4 3 3) (State.reset.setGpr 3 .unspecified)) 4 =
      some (.holds (Config.freeWord 0 .first - Config.freeWord 0 .second)) := by rfl

/-! ## Branches and jumps (V113 to V146) -/

theorem test_beq : branchVectors
    [(0x1022FFFE, 0x00400010, [(1, 3), (2, 3)], 0x0040000C),
     (0x1022FFFE, 0x00400010, [(1, 3), (2, 4)], 0x00400018),
     (0x10007FFF, 0x00400000, [], 0x00420000),
     (0x10008000, 0x00400000, [], 0x003E0004),
     (0x1000FFFE, 0x00000000, [], 0xFFFFFFFC)] = true := by decide

theorem test_bne : branchVectors
    [(0x14220003, 0x00400000, [(1, 1)], 0x00400010),
     (0x14220003, 0x00400000, [(1, 5), (2, 5)], 0x00400008)] = true := by decide

theorem test_bgez : branchVectors
    [(0x04210002, 0x00400000, [], 0x0040000C),
     (0x04210002, 0x00400000, [(1, 0x80000000)], 0x00400008)] = true := by decide

theorem test_bgtz : branchVectors
    [(0x1C200002, 0x00400000, [], 0x00400008),
     (0x1C200002, 0x00400000, [(1, 0x7FFFFFFF)], 0x0040000C),
     (0x1C200002, 0x00400000, [(1, 0xFFFFFFFF)], 0x00400008)] = true := by decide

theorem test_blez : branchVectors
    [(0x18200002, 0x00400000, [], 0x0040000C),
     (0x18200002, 0x00400000, [(1, 0x80000000)], 0x0040000C),
     (0x18200002, 0x00400000, [(1, 1)], 0x00400008)] = true := by decide

theorem test_bltz : branchVectors
    [(0x04200002, 0x00400000, [(1, 0xFFFFFFFF)], 0x0040000C),
     (0x04200002, 0x00400000, [], 0x00400008)] = true := by decide

theorem test_j : branchVectors
    [(0x08040010, 0x00400000, [], 0x00100040),
     (0x0BFFFFFF, 0x00400000, [], 0x0FFFFFFC),
     (0x08000000, 0x0FFFFFFC, [], 0x10000000)] = true := by decide

theorem test_jal : branchVectors [(0x0C100040, 0x00400000, [], 0x00400100)] = true := by decide

theorem test_jal_link : gprVectors [(0x0C100040, [], 31, 0x00400008)] = true := by decide

theorem test_jr : branchVectors
    [(0x03E00008, 0x00400100, [(31, 0x00400008)], 0x00400008),
     (0x00800008, 0x00400000, [(4, 0x00400102)], 0x00400102)] = true := by decide

theorem test_jalr : gprVectors
    [(0x0080F809, [(4, 0x00400100)], 31, 0x00400008),
     (0x00802809, [(4, 0x00400100)], 5, 0x00400008)] = true := by decide

/-- V142, V143. -/
theorem test_jalr_same_register :
    ([0x00802009, 0x00000009].all fun w =>
      faultOf (runWord (regs [(4, 0x00400100)]) w) == some .jalrSameRegister) = true := by decide

/-- V144, V145. -/
theorem test_transfer_in_slot :
    ([0x10000004, 0x03E00008].all fun w =>
      faultOf (runWord { State.reset with ds := true } w) == some .controlTransferInDelaySlot) =
      true := by decide

/-- V146: the record of an exception in a delay slot. -/
theorem test_exception_in_slot :
    recordOf (runWord
      { regs [(1, 0x7FFFFFFF), (2, 1)] with pc := 0x00400024, npc := 0x00400028, ds := true }
      0x00221820) =
      some { name := .integerOverflow, pc := 0x00400024, ds := true, restart := 0x00400020,
             word := some 0x00221820, kind := none, badaddr := none, cop := none } := by decide

/-! ## Loads and stores (V147 to V173) -/

/-- The state of the load and store vectors: x[1], x[2], and bytes in the image. -/
def memState (e : Endian) (x1 x2 : Word) (a : Nat) (l : List Byte) : State :=
  withBytes { regs [(1, x1), (2, x2)] with params := { Params.reset with endian := e } } a l

theorem test_lw :
    (xAfter (runWord (memState .big 0x10010008 0 0x10010004 [0xDE, 0xAD, 0xBE, 0xEF]) 0x8C22FFFC) 2,
     xAfter (runWord (memState .little 0x10010008 0 0x10010004 [0xDE, 0xAD, 0xBE, 0xEF]) 0x8C22FFFC) 2) =
      (some 0xDEADBEEF, some 0xEFBEADDE) := by decide

theorem test_lw_misaligned :
    (recordOf (runWord (memState .big 0x10010002 0 0x10010000 [1, 2, 3, 4, 5, 6, 7, 8]) 0x8C220000)).map
      (fun r => (r.name, r.kind, r.badaddr)) =
      some (.addressError, some .load, some 0x10010002) := by decide

theorem test_lb :
    (xAfter (runWord (memState .big 0x10010000 0 0x10010000 [0x11, 0x22, 0x33, 0xF0]) 0x80220003) 2,
     xAfter (runWord (memState .big 0xFFFF8001 0 0 [0x55]) 0x80227FFF) 2) =
      (some 0xFFFFFFF0, some 0x55) := by decide

theorem test_lbu :
    xAfter (runWord (memState .little 0x10010000 0 0x10010000 [0x80]) 0x90220000) 2 =
      some 0x80 := by decide

/-- 93_implementation_defined.md U18: a load of a word with an unspecified byte yields an unspecified register. -/
theorem test_lw_unspecified :
    gprAfter (runWord (memState .big 0x10010008 0 0x10010004 [0xDE, 0xAD, 0xBE]) 0x8C22FFFC) 2 =
      some .unspecified := by decide

theorem test_sb :
    bytesAfter (runWord (memState .big 0x10010000 0x12345678 0x10010000 [0, 0, 0, 0]) 0xA0220001)
      0x10010000 4 = some [some 0, some 0x78, some 0, some 0] := by decide

theorem test_sw :
    (bytesAfter (runWord (memState .big 0x10010000 0x11223344 0x10010008 [0, 0, 0, 0]) 0xAC220008)
      0x10010008 4,
     bytesAfter (runWord (memState .little 0x10010000 0x11223344 0x10010008 [0, 0, 0, 0]) 0xAC220008)
      0x10010008 4) =
      (some [some 0x11, some 0x22, some 0x33, some 0x44],
       some [some 0x44, some 0x33, some 0x22, some 0x11]) := by decide

theorem test_sw_misaligned :
    (recordOf (runWord (memState .big 0x10010000 5 0x10010000 [1, 2, 3, 4]) 0xAC220002)).map
      (fun r => (r.name, r.kind, r.badaddr)) =
      some (.addressError, some .store, some 0x10010002) := by decide

theorem test_lwc1 :
    (fAfter (runWord (memState .big 0x10010000 0 0x10010004 [0x3F, 0xC0, 0, 0]) 0xC4220004) 2,
     fAfter (runWord (memState .little 0x10010000 0 0x10010004 [0, 0, 0xC0, 0x3F]) 0xC4220004) 2) =
      (some 0x3FC00000, some 0x3FC00000) := by decide

theorem test_swc1 :
    bytesAfter (runWord ((memState .little 0x10010000 0 0x10010004 [0, 0, 0, 0]).setF 2 0x40700000)
      0xE4220004) 0x10010004 4 = some [some 0, some 0, some 0x70, some 0x40] := by decide

/-! ## SYSCALL (V174 to V176) -/

theorem test_syscall :
    recordOf (runWord { State.reset with pc := 0x00400010, npc := 0x00400014, ds := true } 0x0048D14C) =
      some { name := .systemCall, pc := 0x00400010, ds := true, restart := 0x0040000C,
             word := some 0x0048D14C, kind := none, badaddr := none, cop := none } := by decide

/-! ## Floating point (V177 to V248) -/

/-- Vectors of one operation: operands, the modes of the row, the result, and the conditions arising as (divByZero,
overflow, tiny, inexact). -/
def fpVectors (op : RoundingMode → Word → Word → FpResult × FpFacts)
    (l : List (Word × Word × List RoundingMode × Word × Bool × Bool × Bool × Bool)) : Bool :=
  l.all fun v => v.2.2.1.all fun m =>
    let r := op m v.1 v.2.1
    r.1 == .bits v.2.2.2.1 &&
      (r.2.divByZero, r.2.overflow, r.2.tiny, r.2.inexact) == v.2.2.2.2 && !r.2.invalid

def anyMode : List RoundingMode := [.rn, .rz, .rp, .rm]

/-- V177 to V189, V192, V193. -/
theorem test_fpAddS : fpVectors fpAddS
    [(0x3FC00000, 0x40100000, anyMode, 0x40700000, false, false, false, false),
     (0x3F800000, 0xBF800000, [.rn, .rz, .rp], 0x00000000, false, false, false, false),
     (0x3F800000, 0xBF800000, [.rm], 0x80000000, false, false, false, false),
     (0x80000000, 0x80000000, anyMode, 0x80000000, false, false, false, false),
     (0x00000000, 0x80000000, [.rn, .rz, .rp], 0x00000000, false, false, false, false),
     (0x00000000, 0x80000000, [.rm], 0x80000000, false, false, false, false),
     (0x3F800000, 0x33800000, [.rn, .rz, .rm], 0x3F800000, false, false, false, true),
     (0x3F800000, 0x33800000, [.rp], 0x3F800001, false, false, false, true),
     (0x3F800001, 0x33800000, [.rn, .rp], 0x3F800002, false, false, false, true),
     (0x3F800001, 0x33800000, [.rz, .rm], 0x3F800001, false, false, false, true),
     (0x7F7FFFFF, 0x7F7FFFFF, [.rn, .rp], 0x7F800000, false, true, false, true),
     (0x7F7FFFFF, 0x7F7FFFFF, [.rz, .rm], 0x7F7FFFFF, false, true, false, true),
     (0x7F800000, 0x7F800000, anyMode, 0x7F800000, false, false, false, false),
     (0x00000001, 0x3F800000, [.rn, .rz, .rm], 0x3F800000, false, false, false, true),
     (0x00000001, 0x3F800000, [.rp], 0x3F800001, false, false, false, true)] = true := by decide

/-- V194 to V199 but V197, and V240. -/
theorem test_fpSubS : fpVectors fpSubS
    [(0x3FC00000, 0x40100000, anyMode, 0xBF400000, false, false, false, false),
     (0x3F800000, 0x3F800000, [.rn, .rz, .rp], 0x00000000, false, false, false, false),
     (0x3F800000, 0x3F800000, [.rm], 0x80000000, false, false, false, false),
     (0xFF7FFFFF, 0x7F7FFFFF, [.rn, .rm], 0xFF800000, false, true, false, true),
     (0xFF7FFFFF, 0x7F7FFFFF, [.rz, .rp], 0xFF7FFFFF, false, true, false, true),
     (0x00800001, 0x00800000, [.rn], 0x00000001, false, false, true, false)] = true := by decide

/-- V200 to V209 but V202. -/
theorem test_fpMulS : fpVectors fpMulS
    [(0x3FC00000, 0x40100000, anyMode, 0x40580000, false, false, false, false),
     (0xBF800000, 0x00000000, anyMode, 0x80000000, false, false, false, false),
     (0x7F7FFFFF, 0x40000000, [.rn, .rp], 0x7F800000, false, true, false, true),
     (0x7F7FFFFF, 0x40000000, [.rz, .rm], 0x7F7FFFFF, false, true, false, true),
     (0x00800000, 0x3F000000, anyMode, 0x00400000, false, false, true, false),
     (0x00800001, 0x3F000000, [.rn, .rz, .rm], 0x00400000, false, false, true, true),
     (0x00800001, 0x3F000000, [.rp], 0x00400001, false, false, true, true),
     (0x3F800001, 0x3F800001, [.rn, .rz, .rm], 0x3F800002, false, false, false, true),
     (0x3F800001, 0x3F800001, [.rp], 0x3F800003, false, false, false, true)] = true := by decide

/-- V210 to V218 but V215 and V216. -/
theorem test_fpDivS : fpVectors fpDivS
    [(0x3FC00000, 0x3F000000, anyMode, 0x40400000, false, false, false, false),
     (0x3F800000, 0x40400000, [.rn, .rp], 0x3EAAAAAB, false, false, false, true),
     (0x3F800000, 0x40400000, [.rz, .rm], 0x3EAAAAAA, false, false, false, true),
     (0x3F800000, 0x00000000, anyMode, 0x7F800000, true, false, false, false),
     (0xBF800000, 0x00000000, anyMode, 0xFF800000, true, false, false, false),
     (0x3F800000, 0x7F800000, anyMode, 0x00000000, false, false, false, false),
     (0x7F800000, 0x00000000, anyMode, 0x7F800000, false, false, false, false)] = true := by decide

/-- V190, V191, V197, V202, V215, V216: invalid operations, a NaN of unspecified pattern. -/
theorem test_fp_invalid :
    ([fpAddS .rn 0x7F800000 0xFF800000, fpAddS .rn 0x7FC00000 0x3F800000,
      fpSubS .rn 0x7F800000 0x7F800000, fpMulS .rn 0x00000000 0x7F800000,
      fpDivS .rn 0x00000000 0x00000000, fpDivS .rn 0x7F800000 0x7F800000].all fun r =>
      r.1 == .someNaN && r.2.invalid) = true := by decide

/-- The state of the enables vectors: f[0], f[1], FP_ENABLES as (invalid, divByZero, overflow, underflow, inexact),
FP_SUBNORMAL and CP1_USABLE. -/
def fpState (a b : Word) (en : Bool × Bool × Bool × Bool × Bool) (m : SubnormalMode) (usable : Bool) :
    State :=
  { fregs [(0, a), (1, b)] with
    params :=
      { Params.reset with
        fpEnables := ⟨en.1, en.2.1, en.2.2.1, en.2.2.2.1, en.2.2.2.2⟩
        fpSubnormal := m
        cp1Usable := usable } }

def noEnables : Bool × Bool × Bool × Bool × Bool := (false, false, false, false, false)

/-- V230 to V236, V238, V239, V242, V243. -/
theorem test_fp_raises :
    ([(0x46010083, 0x3F800000, 0x00000000, (false, true, false, false, false), SubnormalMode.unimplemented,
        FpCause.divisionByZero),
      (0x46010080, 0x3F800000, 0x33800000, (false, false, false, false, true), .unimplemented, .inexact),
      (0x46010080, 0x7F7FFFFF, 0x7F7FFFFF, (false, false, false, false, true), .unimplemented, .inexact),
      (0x46010080, 0x7F7FFFFF, 0x7F7FFFFF, (false, false, true, false, true), .unimplemented, .overflow),
      (0x46010080, 0x7F800000, 0xFF800000, (true, false, false, false, false), .unimplemented,
        .invalidOperation),
      (0x46010082, 0x00800000, 0x3F000000, (false, false, false, true, false), .ieee, .underflow),
      (0x46010082, 0x00800000, 0x3F000000, noEnables, .unimplemented, .unimplementedOperation),
      (0x46010081, 0x00800001, 0x00800000, noEnables, .unimplemented, .unimplementedOperation),
      (0x46000087, 0x7FC00000, 0, (true, false, false, false, false), .unimplemented, .invalidOperation),
      (0x46000087, 0x00000001, 0, noEnables, .unimplemented, .unimplementedOperation)].all fun v =>
      nameOf (runWord (fpState v.2.1 v.2.2.1 v.2.2.2.1 v.2.2.2.2.1 true) v.1) ==
        some (.floatingPoint v.2.2.2.2.2)) = true := by decide

/-- V177, V234, V237, V222, V224, V244, V210: results that reach f[2]. -/
theorem test_fp_writes :
    ([(0x46010080, 0x3FC00000, 0x40100000, noEnables, SubnormalMode.unimplemented, (0x40700000 : Word)),
      (0x46010080, 0x7F7FFFFF, 0x7F7FFFFF, (false, true, false, true, false), .unimplemented, 0x7F800000),
      (0x46010081, 0x3FC00000, 0x40100000, noEnables, .unimplemented, 0xBF400000),
      (0x46010082, 0x00800000, 0x3F000000, noEnables, .ieee, 0x00400000),
      (0x46010083, 0x3FC00000, 0x3F000000, noEnables, .unimplemented, 0x40400000),
      (0x46000087, 0x3FC00000, 0, noEnables, .unimplemented, 0xBFC00000),
      (0x46000087, 0xFF800000, 0, noEnables, .unimplemented, 0x7F800000),
      (0x46000087, 0x00000001, 0, noEnables, .ieee, 0x80000001),
      (0x46000086, 0x7FA00001, 0, noEnables, .unimplemented, 0x7FA00001)].all fun v =>
      fAfter (runWord (fpState v.2.1 v.2.2.1 v.2.2.2.1 v.2.2.2.2.1 true) v.1) 2 ==
        some v.2.2.2.2.2) = true := by decide

/-- V190, V191 and the NaN row of NEG.S with nothing enabled: f[2] holds some NaN. -/
theorem test_fp_some_nan :
    ([(0x46010080, 0x7F800000, 0xFF800000), (0x46010080, 0x7FC00000, 0x3F800000),
      (0x46000087, 0x7FC00000, 0)].all fun v =>
      fprAfter (runWord (fpState v.2.1 v.2.2 noEnables .unimplemented true) v.1) 2 == some .someNaN) =
      true := by decide

theorem test_mfc1 :
    xAfter (runWord (fregs [(2, 0x40700000)]) 0x44081000) 8 = some 0x40700000 := by decide

theorem test_mtc1 :
    fAfter (runWord (regs [(8, 0xFFFFFFFF)]) 0x4488F800) 31 = some 0xFFFFFFFF := by decide

/-- V245, V246, V315: the ten CP1 instructions with CP1_USABLE false. -/
theorem test_cp1_unusable :
    ([0x46010080, 0x46010081, 0x46010082, 0x46010083, 0x46000086, 0x46000087, 0x44081000, 0x44881000,
      0xC4220001, 0xE4220004].all fun w =>
      (recordOf (runWord (fpState 0 0 noEnables .unimplemented false) w)).map (fun r => (r.name, r.cop)) ==
        some (.coprocessorUnusable, some 1)) = true := by decide

/-! ## MemCheck, fetch and priority (V305 to V314) -/

/-- MemCheck of section 3.15: VALID is 0x00400000..0x00400FFF and 0x10010000..0x10010FFF. -/
def validTable {α : Type} (outside : α) : CheckTable α where
  rules :=
    [⟨0x00400000, 0x00400FFF, .byte, none⟩, ⟨0x10010000, 0x10010FFF, .byte, none⟩,
     ⟨0x00400000, 0x00400FFC, .word, none⟩, ⟨0x10010000, 0x10010FFC, .word, none⟩]
  otherwise := some outside

def checkedState (l : ReadAnswer) (st : StoreAnswer) (x1 : Word) : State :=
  { regs [(1, x1), (2, 1)] with
    params :=
      { Params.reset with
        memCheck := { load := validTable l, store := validTable st, fetch := validTable l } } }

/-- V305 to V309, V311. -/
theorem test_memCheck :
    ([(0x8C220000, 0x20000000, ReadAnswer.busError, StoreAnswer.tlbRefill, ExceptionName.busError,
        AccessKind.load),
      (0x80220000, 0x20000000, .tlbRefill, .tlbRefill, .tlbRefill, .load),
      (0xA0220000, 0x20000000, .tlbRefill, .tlbRefill, .tlbRefill, .store),
      (0xAC220000, 0x20000000, .tlbRefill, .tlbModified, .tlbModified, .store),
      (0x8C220000, 0x20000002, .busError, .busError, .addressError, .load),
      (0x80220000, 0x10011000, .watch, .watch, .watch, .load)].all fun v =>
      (recordOf (runWord (checkedState v.2.2.1 v.2.2.2.1 v.2.1) v.1)).map
        (fun r => (r.name, r.kind, r.badaddr)) ==
        some (v.2.2.2.2.1, some v.2.2.2.2.2, some v.2.1)) = true := by decide

/-- V312. -/
theorem test_fetch_misaligned :
    recordOf (step { State.reset with pc := 0x00400002 }) =
      some { name := .addressError, pc := 0x00400002, ds := false, restart := 0x00400002,
             word := none, kind := some .fetch, badaddr := some 0x00400002, cop := none } := by decide

/-- V313. -/
theorem test_fetch_refused :
    nameOf (step { checkedState .tlbRefill .tlbRefill 0 with pc := 0x00500000 }) =
      some .tlbRefill := by decide

/-- V314: a reserved word, in a delay slot, with CP1_USABLE false. -/
theorem test_reserved_instruction :
    recordOf (runWord
      { fpState 0 0 noEnables .unimplemented false with pc := 0x00400010, npc := 0x00400014, ds := true }
      0xFFFFFFFF) =
      some { name := .reservedInstruction, pc := 0x00400010, ds := true, restart := 0x0040000C,
             word := some 0xFFFFFFFF, kind := none, badaddr := none, cop := none } := by decide

/-- P10: the word just stored by the program is fetched. -/
theorem test_fetch_written :
    faultOf (step ((State.reset.withFetchWord 32 0x24090001).storeBytes 0x00400000 0)) =
      some .fetchOfWrittenLocation := by decide

/-- P13: a fetch where nothing is defined. -/
theorem test_fetch_unspecified : faultOf (step State.reset) = some .fetchOfUnspecifiedByte := by decide

/-! ## The assembler (V287 to V304) -/

theorem test_branchField :
    (branchField 0x00400020 0x00400008, branchField 0x00400000 0x00420000,
     branchField 0x00400000 0x00420004, branchField 0x00400000 0x003E0004) =
      (some 0xFFF9, some 0x7FFF, none, some 0x8000) := by decide

theorem test_jumpField :
    (jumpField 0x00400000 0x10000000, jumpField 0x0FFFFFFC 0x10000000, jumpField 0x00400008 0x00400018) =
      (none, some 0, some 0x0100006) := by decide

theorem test_pseudo :
    ((pseudoLi 8 (-7)).map encode, pseudoLi 8 32768, (pseudoLa 8 0x10010020).map encode,
     encode (idiomB 4), encode (jalrOneOperand 4), encode syscallNoOperand, encode nop) =
      (some 0x2008FFF9, none, [0x3C081001, 0x35080020], 0x10000004, 0x0080F809, 0x0000000C, 0) := by decide

/-! ## Witnesses: for each statement with hypotheses, a state and operands that meet them, clause by clause -/

open Statements

/-- The reset state with this instruction's word at its `pc`. -/
def at0 (i : Instr) : State := State.reset.withFetchWord 32 (encode i).toNat

theorem witness_EncodeOfDecode : decode 0xAFFFFFFF = .ok (.sw 31 0xFFFF 31) := by decide

theorem witness_DecodeIsTheOpcodeTable :
    decode 0x0000000C = .ok (.syscall 0) ∧
      (⟨"SYSCALL", 0xFC00003F, 0x0000000C⟩ : OpcodeRow) ∈ opcodeTable ∧
        (0x03FFFFCC#32 &&& 0xFC00003F#32) = 0x0000000C#32 := by decide

theorem witness_ReservedWordsRaise :
    fetchWord (State.reset.withFetchWord 32 0xFFFFFFFF) = .ok 0xFFFFFFFF ∧
      (∀ r ∈ opcodeTable, 0xFFFFFFFF#32 &&& r.mask ≠ r.pattern) ∧
      nameOf (runWord State.reset 0x00000001) = some .reservedInstruction ∧
      ([0x42000018#32, 0x4200001F#32, 0x42000020#32].all fun w => opcodeOf w == 0b010000#6) = true := by
  decide

/-- At ENTRY_PC in the big order, and at the last word of the address space in the little order. -/
theorem witness_StepRunsDecodedInstruction :
    ([State.launch Params.reset Registers.zero { cells := [] },
      State.launch { Params.reset with endian := .little, entryPc := 0xFFFFFFFC } Registers.unspecified { cells := [] }].all fun s =>
      let t := s.withFetchWord 32 0x2022FFFF
      wordAligned t.pc && (memCheck t t.pc .word .fetch).isNone && t.written.isEmpty &&
        ((List.range 4).all fun k => (t.mem.read (t.pc.toNat + k)).isSome) &&
        decide (fetchInstr t = .ok (.addi 2 1 0xFFFF))) = true := by decide

theorem witness_FetchStopsInOrder :
    ({ State.reset with pc := 0x00400003 } : State).pc.toNat % 4 ≠ 0 ∧
      memCheck (checkedState .watch .watch 0) 0x00500000 .word .fetch = some .watch ∧
      memCheck State.reset State.reset.pc .word .fetch = none ∧
      State.reset.pc.toNat + 3 ∈ (State.reset.storeByte 0x00400003 1).written ∧
      State.reset.mem.read (State.reset.pc.toNat + 3) = none ∧ State.reset.written = [] := by decide

theorem witness_MemCheckAnswers :
    memCheck (checkedState .busError .tlbModified 0) 0x20000000 .word .store = some .tlbModified ∧
      memCheck (checkedState .busError .tlbModified 0) 0x20000000 .byte .load = some .busError ∧
      (∀ (a : Word) (w : Width) (k : AccessKind) (n : ExceptionName),
        (fun (_ : Word) (_ : Width) (k : AccessKind) =>
          if k = .store then some ExceptionName.tlbModified else some ExceptionName.watch) a w k = some n →
          isAccessName n ∧ (n = .tlbModified → k = .store)) := by
  refine ⟨by decide, by decide, fun a w k n h => ?_⟩
  cases k <;> simp at h <;> subst h <;> simp [isAccessName]

theorem witness_ExceptionRecordIsExact :
    (recordOf (step (at0 (.syscall 0xFFFFF)))).isSome = true ∧
      nameOf (step { State.reset with pc := 1 }) = some .addressError ∧
      nameOf (step ((at0 (.lw 1 0xFFFF 0)))) = some .addressError := by decide

theorem witness_OnlyTheMatrixRaises :
    (recordOf (exec (.sw 1 2 0) State.reset)).isSome = true ∧
      (recordOf (exec (.divS 1 2 3)
        { State.reset with params := { Params.reset with cp1Usable := false } })).isSome = true := by decide

/-- The boundary: 2^31 - 1 + 1, and -2^31 - 1. -/
theorem witness_IntegerOverflowExactly :
    sumOverflows (.addi 0 1 1) (regs [(1, 0x7FFFFFFF)]) ∧
      sumOverflows (.sub 0 1 2) (regs [(1, 0x80000000), (2, 1)]) ∧
      nameOf (exec (.add 3 1 2) (regs [(1, 0x80000000), (2, 0xFFFFFFFF)])) = some .integerOverflow := by
  refine ⟨?_, ?_, by decide⟩ <;> unfold sumOverflows <;> decide

theorem witness_CoprocessorUnusableExactly :
    let s : State := { State.reset with params := { Params.reset with cp1Usable := false } }
    (Instr.lwc1 1 1 0).isCp1 = true ∧ s.params.cp1Usable = false ∧
      nameOf (exec (.lwc1 1 1 0) s) = some .coprocessorUnusable := by decide

theorem witness_SyscallAlwaysStops :
    nameOf (exec (.syscall 0x12345) { State.reset with ds := true }) = some .systemCall := by decide

theorem witness_ModelFaultsExactly :
    faultOf (step { at0 (.j 0) with ds := true }) = some .controlTransferInDelaySlot ∧
      faultOf (step (at0 (.jalr 4 4))) = some .jalrSameRegister ∧
      faultOf (step ((at0 nop).storeByte 0x00400003 0)) = some .fetchOfWrittenLocation ∧
      faultOf (step State.reset) = some .fetchOfUnspecifiedByte := by decide

theorem machineInv_at0_sw : MachineInv (at0 (.sw 1 0x1000 0)) where
  memory := by decide
  writtenWf := by decide
  writtenSpecified := by decide
  gprZero := by decide
  sequential := by decide
  slotAligned := by decide

/-- A store, a branch and its delay slot: the invariant holds before, and the step completes. -/
theorem witness_StepKeepsInvariant :
    MachineInv (at0 (.sw 1 0x1000 0)) ∧ (∃ t, step (at0 (.sw 1 0x1000 0)) = .next t) ∧
      (flowAfter (step (at0 (.beq 0 0 4)))).isSome = true :=
  ⟨machineInv_at0_sw, ⟨_, rfl⟩, by decide⟩

theorem witness_LaunchMeetsInvariant :
    ({ cells := [(0, 1#8), (0xFFFFFFFF, 2#8)] } : Memory).wf := by decide

theorem witness_WholeRunFrame :
    ∃ t, RunsTo 1 (at0 (.sw 1 0x1000 0)) t ∧ 0x1000 ∈ t.written ∧ 0x0FFF ∉ t.written :=
  ⟨_, ⟨_, rfl, rfl⟩, by decide, by decide⟩

/-- The image holds SLL twice; after one step the second word is fetched from it. -/
theorem witness_FetchedCodeIsTheLaunchImage :
    let image := (withBytes State.reset 0x00400000 [0, 0, 0, 0, 0, 2, 0x19, 0]).mem
    ∃ t, RunsTo 1 (State.launch Params.reset Registers.unspecified image) t ∧ fetchWord t = .ok 0x00021900 :=
  ⟨_, ⟨_, rfl, rfl⟩, by decide⟩

theorem witness_OnlyStoresChangeMemory :
    (∃ t, exec (.lw 1 0 0) State.reset = .next t) ∧ storedBytes (.lw 1 0 0) = none ∧
      (∃ t, exec (.swc1 1 0xFFFC 0) State.reset = .next t) ∧
      storedBytes (.swc1 1 0xFFFC 0) = some (4, 0, 0xFFFC) :=
  ⟨⟨_, rfl⟩, rfl, ⟨_, rfl⟩, rfl⟩

theorem witness_GprWriters :
    ∃ t, exec (.jal 0) State.reset = .next t ∧ t.gprAt 31 ≠ State.reset.gprAt 31 := ⟨_, rfl, by decide⟩

theorem witness_FprAndHiLoWriters :
    (∃ t, exec (.mtc1 1 31) (regs [(1, 7)]) = .next t ∧ t.fprAt 31 ≠ (regs [(1, 7)]).fprAt 31) ∧
      (∃ t, exec (.divu 1 0) State.reset = .next t ∧ t.lo ≠ State.reset.lo) :=
  ⟨⟨_, rfl, by decide⟩, ⟨_, rfl, by decide⟩⟩

theorem witness_ControlFlowOfEveryStep :
    (∃ t, exec nop { State.reset with ds := true, npc := 0xFFFFFFFC } = .next t) ∧
      nop.isControlTransfer = false ∧ (∃ t, exec (.bne 0 0 1) State.reset = .next t) ∧
      (Instr.bne 0 0 1).isControlTransfer = true := ⟨⟨_, rfl⟩, rfl, ⟨_, rfl⟩, rfl⟩

/-- At the last word of the address space the slot is at 0. In the slot: a NOP, and a SYSCALL. -/
theorem witness_DelaySlotThenTarget :
    let s : State := { State.reset with pc := 0xFFFFFFFC, npc := 0 }
    ∃ t, s.npc = s.pc + 4#32 ∧ exec (.beq 0 0 4) (withBytes s 0 [0, 0, 0, 0]) = .next t ∧
      (flowAfter (step t)).isSome = true ∧
      (recordOf (step (withBytes t 0 [0, 0, 0, 0x0C]))).isSome = true :=
  ⟨_, by decide, rfl, by decide, by decide⟩

theorem witness_MisalignedTargetRaisesAtFetch :
    (regs [(4, 0x00400001)]).ds = false ∧ ((regs [(4, 0x00400001)]).x .first 4).toNat % 4 ≠ 0 ∧
      ((regs [(4, 0xFFFFFFFF)]).x .first 4).toNat % 4 ≠ 0 ∧ (4 : Reg) ≠ 31 ∧
      (∃ t u, exec (.jr 4) (regs [(4, 0x00400001)]) = .next t ∧ exec nop t = .next u) ∧
      (0xFFFFFFFC#32).toNat % 4 = 0 :=
  ⟨by decide, by decide, by decide, by decide, ⟨_, _, rfl, rfl⟩, by decide⟩

/-- Both sides of both ends of the range. -/
theorem witness_AddAndSubExactOrTrap :
    ¬ sumOverflows (.add 0 1 2) (regs [(1, 0x7FFFFFFE), (2, 1)]) ∧
      sumOverflows (.add 0 1 2) (regs [(1, 0x7FFFFFFF), (2, 1)]) ∧
      ¬ sumOverflows (.addi 3 1 0xFFFF) (regs [(1, 0x80000001)]) ∧
      sumOverflows (.addi 3 1 0xFFFF) (regs [(1, 0x80000000)]) ∧
      ¬ sumOverflows (.sub 3 1 2) (regs [(1, 0xFFFFFFFF), (2, 0x80000000)]) ∧
      sumOverflows (.sub 3 1 2) (regs [(2, 0x80000000)]) := by
  refine ⟨?_, ?_, ?_, ?_, ?_, ?_⟩ <;> unfold sumOverflows <;> decide

theorem witness_ConditionalMoves :
    (regs [(2, 0x80000000)]).x .first 2 ≠ 0 ∧ (regs [(2, 0x80000000)]).x .first 0 = 0 := by decide

/-- -2^31 / 1 divides; -2^31 / -1 and 5 / 0 do not. -/
theorem witness_SignedDivisionLaw :
    let s := regs [(1, 0x80000000), (2, 1), (3, 0xFFFFFFFF)]
    (s.x .first 2).toInt ≠ 0 ∧ ¬ ((s.x .first 1).toInt = -2 ^ 31 ∧ (s.x .first 2).toInt = -1) ∧
      ((s.x .first 1).toInt = -2 ^ 31 ∧ (s.x .first 3).toInt = -1) ∧ (s.x .first 0).toInt = 0 := by decide

theorem witness_UnsignedDivisionLaw :
    ((regs [(2, 0xFFFFFFFF)]).x .first 2).toNat ≠ 0 ∧ ((regs [(2, 1)]).x .first 0).toNat = 0 := by decide

theorem witness_MoveFromHiAndLo :
    State.reset.hi = .holds 0 ∧ State.reset.lo = .holds 0 ∧
      State.reset.unspecifyHiLo.hi = .unspecified ∧ State.reset.unspecifyHiLo.lo = .unspecified := by
  decide

/-- The address wraps: base 0xFFFFFFFF, offset 1. The byte at 0 is unspecified in one state, and not in the other. -/
theorem witness_ByteLoads :
    let s := regs [(1, 0xFFFFFFFF)]
    memCheck s (effectiveAddress (s.x .first 1) 1) .byte .load = none ∧
      s.mem.read (effectiveAddress (s.x .first 1) 1).toNat = none ∧
      (withBytes s 0 [0x80]).mem.read (effectiveAddress (s.x .first 1) 1).toNat = some 0x80 := by decide

/-- The last word of the address space, with three of its four bytes in the image, and with all of them. -/
theorem witness_WordLoads :
    let s := withBytes State.reset 0xFFFFFFFC [0x11, 0x22, 0x33]
    let a := effectiveAddress (s.x .first 0) 0xFFFC
    a.toNat % 4 = 0 ∧ memCheck s a .word .load = none ∧ s.params.cp1Usable = true ∧
      (∃ k < 4, s.mem.read (a.toNat + k) = none) ∧
      HoldsWord (withBytes s 0xFFFFFFFF [0x44]) a.toNat 0x11223344 := by
  refine ⟨by decide, by decide, by decide, ⟨3, by decide, by decide⟩, fun k hk => ?_⟩
  interval_cases k
  · exact ⟨0x11, by decide, by decide⟩
  · exact ⟨0x22, by decide, by decide⟩
  · exact ⟨0x33, by decide, by decide⟩
  · exact ⟨0x44, by decide, by decide⟩

theorem witness_ByteStores :
    memCheck State.reset (effectiveAddress (State.reset.x .first 0) 0xFFFF) .byte .store = none := by decide

theorem witness_WordStores :
    (effectiveAddress (State.reset.x .first 0) 0xFFFC).toNat % 4 = 0 ∧
      memCheck State.reset (effectiveAddress (State.reset.x .first 0) 0xFFFC) .word .store = none ∧
      State.reset.params.cp1Usable = true := by decide

theorem witness_AccessesRaiseInOrder :
    dataAccess (.swc1 1 0xFFFD 0) = some (.store, .word, 0, 0xFFFD) ∧
      State.reset.params.cp1Usable = true ∧
      (effectiveAddress (State.reset.x .first 0) 0xFFFD).toNat % 4 ≠ 0 ∧
      dataAccess (.lb 1 1 0) = some (.load, .byte, 0, 1) ∧
      memCheck (checkedState .tlbInvalid .watch 0) (effectiveAddress 0 1) .byte .load =
        some .tlbInvalid := by decide

/-- The word at the top of the address space read back, and its last byte. -/
theorem witness_StoreThenLoad :
    ∃ t, exec (.sw 2 0xFFFC 0) (regs [(2, 0x11223344)]) = .next t ∧
      effectiveAddress (t.x .first 0) 0xFFFC = effectiveAddress (State.reset.x .first 0) 0xFFFC ∧
      memCheck t (effectiveAddress (t.x .first 0) 0xFFFC) .word .load = none ∧
      (effectiveAddress (t.x .first 0) 0xFFFF).toNat = (effectiveAddress (State.reset.x .first 0) 0xFFFC).toNat + 3 ∧
      memCheck t (effectiveAddress (t.x .first 0) 0xFFFF) .byte .load = none :=
  ⟨_, rfl, by decide, by decide, by decide, by decide⟩

/-- Each condition met and not met: 0, 0x80000000 and 0x7FFFFFFF. -/
theorem witness_ConditionalBranches :
    let s := regs [(1, 0x80000000), (2, 0x7FFFFFFF)]
    s.ds = false ∧ s.x .first 0 = s.x .first 0 ∧ s.x .first 1 ≠ s.x .first 2 ∧ 0 ≤ (s.x .first 0).toInt ∧ (s.x .first 1).toInt < 0 ∧
      0 < (s.x .first 2).toInt ∧ ¬ 0 < (s.x .first 0).toInt := by decide

theorem witness_Jumps : State.reset.ds = false ∧ (1 : Reg) ≠ 31 := by decide

theorem fpValue_one : fpValue 0x3F800000 = 2 ^ 149 := by decide
theorem fpValue_largest : fpValue 0x7F7FFFFF = (2 ^ 24 - 1) * 2 ^ 253 := by decide

theorem not_roundOverflows_two : ¬ RoundOverflows .rn (FpOp.add.exact 0x3F800000 0x3F800000) := by
  norm_num [RoundOverflows, largestFinite, FpOp.exact, fpValue_one]

/-- 1 + 1, and the largest finite value less 1, whose exact difference is under the largest. -/
theorem witness_SumsRoundCorrectly :
    fpFinite 0x3F800000 ∧ fpFinite 0x7F7FFFFF ∧
      ¬ RoundOverflows .rn (FpOp.add.exact 0x3F800000 0x3F800000) ∧
      ¬ RoundOverflows .rp (FpOp.sub.exact 0x7F7FFFFF 0x3F800000) := by
  refine ⟨by unfold fpFinite; decide, by unfold fpFinite; decide, not_roundOverflows_two, ?_⟩
  norm_num [RoundOverflows, largestFinite, FpOp.exact, fpValue_one, fpValue_largest]

theorem witness_ProductsRoundCorrectly :
    fpFinite 0x3F800000 ∧ fpFinite 0x7F7FFFFF ∧
      ¬ RoundOverflows .rm (FpOp.mul.exact 0x7F7FFFFF 0x3F800000) := by
  refine ⟨by unfold fpFinite; decide, by unfold fpFinite; decide, ?_⟩
  norm_num [RoundOverflows, largestFinite, FpOp.exact, fpValue_one, fpValue_largest]

theorem witness_QuotientsRoundCorrectly :
    FpOp.div.finiteOn 0x7F7FFFFF 0x3F800000 ∧
      ¬ RoundOverflows .rz (FpOp.div.exact 0x7F7FFFFF 0x3F800000) := by
  refine ⟨⟨by unfold fpFinite; decide, by unfold fpFinite; decide, fun _ => by decide⟩, ?_⟩
  norm_num [RoundOverflows, largestFinite, FpOp.exact, fpValue_one, fpValue_largest]

/-- Twice the largest finite value overflows in RN. -/
theorem witness_OverflowedResults :
    FpOp.add.finiteOn 0x7F7FFFFF 0x7F7FFFFF ∧
      RoundOverflows .rn (FpOp.add.exact 0x7F7FFFFF 0x7F7FFFFF) := by
  refine ⟨⟨by unfold fpFinite; decide, by unfold fpFinite; decide, fun h => by cases h⟩, ?_⟩
  norm_num [RoundOverflows, largestFinite, FpOp.exact, fpValue_largest]

theorem witness_InvalidOperationExactly :
    (FpOp.run .add .rn 0x7F800000 0xFF800000).2.invalid = true := by decide

/-- Infinity plus infinity; 1 over -0. -/
theorem witness_InfinityAndZeroDivisor :
    isNaN 0x7F800000 = false ∧ ¬ FpOp.add.invalidOn 0x7F800000 0x7F800000 ∧ isInf 0x7F800000 = true ∧
      isNaN 0x80000000 = false ∧ ¬ FpOp.div.invalidOn 0x3F800000 0x80000000 ∧
      isZero 0x80000000 = true ∧ isInf 0x3F800000 = false := by
  refine ⟨by decide, ?_, by decide, by decide, ?_, by decide, by decide⟩ <;>
    unfold FpOp.invalidOn <;> decide

/-- 1 + 1 has no condition; infinity minus infinity has one, the first in the order, enabled. -/
theorem witness_FpFinishInOrder :
    let s := fpState 0x7F800000 0x7F800000 (true, false, false, false, true) .ieee true
    let f := (FpOp.run .sub s.params.fpRm 0x7F800000 0x7F800000).2
    s.params.cp1Usable = true ∧ Arises s.params f .invalidOperation ∧
      Enabled s.params .invalidOperation ∧
      (∀ c, causeRank c < causeRank .invalidOperation → ¬ (Arises s.params f c ∧ Enabled s.params c)) ∧
      (∀ c, ¬ (Arises State.reset.params (FpOp.run .add .rn 0x3F800000 0x3F800000).2 c ∧
        Enabled State.reset.params c)) := by
  refine ⟨by decide, by unfold Arises; decide, by unfold Enabled; decide, ?_, ?_⟩
  · intro c
    cases c <;> unfold Arises Enabled causeRank <;> decide
  · intro c
    cases c <;> unfold Arises Enabled <;> decide

theorem not_isTiny_two : ¬ IsTiny (FpOp.add.exact 0x3F800000 0x3F800000) := by
  norm_num [IsTiny, FpOp.exact, fpValue_one]

theorem witness_FpCompletesWithoutEnables :
    let s := fpState 0x3F800000 0x3F800000 noEnables .unimplemented true
    s.params.cp1Usable = true ∧ s.params.fpEnables = FpEnables.none ∧
      isSubnormal 0x3F800000 = false ∧ ¬ IsTiny (FpOp.add.exact 0x3F800000 0x3F800000) ∧
      (fpState 0 0 noEnables .ieee true).params.fpSubnormal = .ieee :=
  ⟨by decide, by decide, by decide, not_isTiny_two, by decide⟩

theorem witness_UnimplementedExactly :
    (fpState 1 0 noEnables .unimplemented true).params.cp1Usable = true ∧
      nameOf (exec (.addS 2 0 1) (fpState 1 0 noEnables .unimplemented true)) =
        some (.floatingPoint .unimplementedOperation) := by decide

theorem witness_FpMovesCopyBits :
    State.reset.params.cp1Usable = true ∧
      (fpState 0 0 noEnables .ieee false).params.cp1Usable = false := by decide

theorem witness_NegateSingle :
    State.reset.params.cp1Usable = true ∧
      (fpState 0 0 noEnables .ieee false).params.cp1Usable = false ∧
      isNaN 0x7F800001 = true ∧ isNaN 0x80000000 = false ∧ isSubnormal 0x807FFFFF = true ∧
      isSubnormal 0x80000000 = false ∧
      (fpState 0 0 (true, false, false, false, false) .ieee true).params.fpEnables.invalid = true ∧
      (fpState 0 0 noEnables .unimplemented true).params.fpEnables.invalid = false := by decide

theorem witness_FreeNaNIsAnyNaN : isNaN 0xFFFFFFFF = true ∧ isNaN 0x7F800001 = true := by decide

theorem witness_PseudoInstructions :
    pseudoLi 8 (-32768) = some (.addi 8 0 0x8000) ∧ pseudoLi 8 32767 = some (.addi 8 0 0x7FFF) ∧
      State.reset.ds = false := by decide

theorem witness_AssembledTargets :
    branchField 0x00400000 0x00420000 = some 0x7FFF ∧ branchField 0x00400000 0x00420004 = none ∧
      jumpField 0x00400000 0x0FFFFFFC = some 0x3FFFFFF ∧ jumpField 0x00400000 0x10000000 = none := by
  decide

/-- A launch that gives no register a value, some NaN in two registers, and steps that complete. -/
theorem witness_UnspecifiedRegisters :
    let s := State.launch Params.reset Registers.unspecified { cells := [] }
    let t := ((State.reset.setGpr 31 .someNaN).setFpr 31 .someNaN)
    s.gprAt 31 = .unspecified ∧ s.fprAt 0 = .unspecified ∧ t.gprAt 31 = .someNaN ∧ t.fprAt 31 = .someNaN ∧
      State.reset.gprAt 31 = .holds 0 ∧ State.reset.fprAt 31 = .holds 0 ∧
      gprAfter (exec (.movz 2 31 0) t) 2 = some .someNaN ∧ fprAfter (exec (.mtc1 31 2) s) 2 = some .unspecified ∧
      hiLoAfter (exec (.divu 0 0) State.reset) = some (.unspecified, .unspecified) ∧
      (∃ u, RunsTo 1 (at0 (.mul 1 2 3)) u ∧ u.draws = 1) :=
  ⟨by decide, by decide, by decide, by decide, by decide, by decide, by decide, by decide, by decide,
    ⟨_, ⟨_, rfl, rfl⟩, by decide⟩⟩

end Sys2Proof.Tests
end

section
/-! PROOFS. Where control goes in every instruction (00_scope.md R15; 10_state.md R26 step 7, R27).

Every arm of `exec` has one of two shapes: `finish` around an effect on registers or memory, for the instructions
that advance in sequence, and `unlessInDelaySlot` around a `branchTo`, for the ten control transfers. The two shape
lemmas, `exec_eq_finish` and `exec_eq_unlessInDelaySlot`, go through the instructions once; what a completed
instruction does with `pc`, `npc` and `ds` follows from them. -/

namespace Sys2Proof.Machine

/-! ## What the effect of an instruction leaves alone -/

/-- `u` differs from `s` in registers and memory at most: not in control flow, draws or parameters. -/
structure State.KeepsControl (s u : State) : Prop where
  pc : u.pc = s.pc
  npc : u.npc = s.npc
  ds : u.ds = s.ds
  draws : u.draws = s.draws
  params : u.params = s.params

theorem State.keepsControl_self (s : State) : s.KeepsControl s := ⟨rfl, rfl, rfl, rfl, rfl⟩

theorem State.keepsControl_setGpr (s : State) (r : Reg) (c : Contents) : s.KeepsControl (s.setGpr r c) :=
  ⟨by simp, by simp, by simp, by simp, by simp⟩

theorem State.keepsControl_setFpr (s : State) (r : FReg) (c : Contents) : s.KeepsControl (s.setFpr r c) :=
  ⟨rfl, rfl, rfl, rfl, rfl⟩

theorem State.keepsControl_storeByte (s : State) (a : Word) (b : Byte) : s.KeepsControl (s.storeByte a b) :=
  ⟨rfl, rfl, rfl, rfl, rfl⟩

theorem State.keepsControl_storeBytes (s : State) (a v : Word) : s.KeepsControl (s.storeBytes a v) :=
  ⟨rfl, rfl, rfl, rfl, rfl⟩

/-- HI and LO may be set last, as MUL does after its write of `rd` (44_multiply_divide.md R173). -/
theorem State.KeepsControl.setHiLo {s u : State} (h : s.KeepsControl u) (hi lo : SpecialReg) :
    s.KeepsControl (u.setHiLo hi lo) := ⟨h.pc, h.npc, h.ds, h.draws, h.params⟩

theorem State.KeepsControl.ite {s u v : State} {p : Prop} [Decidable p] (hu : s.KeepsControl u)
    (hv : s.KeepsControl v) : s.KeepsControl (if p then u else v) := by
  split
  · exact hu
  · exact hv

theorem keepsControl_divideSigned (s : State) (a b : Int) : s.KeepsControl (divideSigned s a b) :=
  .ite (s.keepsControl_self.setHiLo _ _) (.ite (s.keepsControl_self.setHiLo _ _) (s.keepsControl_self.setHiLo _ _))

theorem keepsControl_divideUnsigned (s : State) (a b : Nat) : s.KeepsControl (divideUnsigned s a b) :=
  .ite (s.keepsControl_self.setHiLo _ _) (s.keepsControl_self.setHiLo _ _)

/-- An effect that raises nothing keeps control flow, draws and parameters. -/
def EffectKeepsControl (s : State) (e : Except Cause State) : Prop := ∀ u, e = .ok u → s.KeepsControl u

section effects
variable {s : State}

theorem effectKeepsControl_ok {u : State} (h : s.KeepsControl u) : EffectKeepsControl s (.ok u) := by
  rintro _ ⟨⟩
  exact h

theorem effectKeepsControl_error (c : Cause) : EffectKeepsControl s (.error c) := by
  rintro _ ⟨⟩

theorem effectKeepsControl_setGpr (r : Reg) (c : Contents) : EffectKeepsControl s (.ok (s.setGpr r c)) :=
  effectKeepsControl_ok (s.keepsControl_setGpr r c)

theorem effectKeepsControl_setFpr (r : FReg) (c : Contents) : EffectKeepsControl s (.ok (s.setFpr r c)) :=
  effectKeepsControl_ok (s.keepsControl_setFpr r c)

theorem EffectKeepsControl.ite {d e : Except Cause State} {p : Prop} [Decidable p] (hd : EffectKeepsControl s d)
    (he : EffectKeepsControl s e) : EffectKeepsControl s (if p then d else e) := by
  split
  · exact hd
  · exact he

theorem EffectKeepsControl.ifCp1Usable {e : Except Cause State} (h : EffectKeepsControl s e) :
    EffectKeepsControl s (ifCp1Usable s e) := .ite h (effectKeepsControl_error _)

theorem effectKeepsControl_writeOrTrap (r : Reg) (n : Int) : EffectKeepsControl s (writeOrTrap s r n) :=
  .ite (effectKeepsControl_error _) (effectKeepsControl_setGpr _ _)

theorem effectKeepsControl_fpFinish (fd : FReg) (r : FpResult × FpFacts) : EffectKeepsControl s (fpFinish s fd r) := by
  intro u hu
  obtain ⟨-, rfl⟩ := (fpFinish_ok s u fd r).1 hu
  exact s.keepsControl_setFpr _ _

/-- A load: whatever was read, its write keeps control. -/
theorem effectKeepsControl_mapRead {α : Type} (e : Except Cause α) {g : α → State} (h : ∀ a, s.KeepsControl (g a)) :
    EffectKeepsControl s (e.map g) := by
  intro u hu
  obtain ⟨a, -, rfl⟩ := (mapRead_ok e g u).1 hu
  exact h a

theorem effectKeepsControl_memWrite1 (a : Word) (b : Byte) : EffectKeepsControl s (memWrite1 s a b) := by
  intro u hu
  obtain ⟨-, rfl⟩ := (memWrite1_ok s u a b).1 hu
  exact s.keepsControl_storeByte a b

theorem effectKeepsControl_memWrite4 (a v : Word) : EffectKeepsControl s (memWrite4 s a v) := by
  intro u hu
  obtain ⟨-, -, rfl⟩ := (memWrite4_ok s u a v).1 hu
  exact s.keepsControl_storeBytes a v

end effects

/-! ## The shape of every arm of `exec` -/

/-- Every instruction but the ten control transfers is `finish` around an effect on registers or memory. SYSCALL is
one whose effect always raises. -/
theorem exec_eq_finish (i : Instr) (s : State) (hi : i.isControlTransfer = false) :
    ∃ e, exec i s = finish s i e ∧ EffectKeepsControl s e := by
  cases i with
  | beq | bne | bgez | bgtz | blez | bltz | j | jal | jalr | jr => cases hi
  | add | addi | sub => exact ⟨_, rfl, effectKeepsControl_writeOrTrap _ _⟩
  | addiu | addu | subu | slt | slti | sltiu | sltu => exact ⟨_, rfl, effectKeepsControl_setGpr _ _⟩
  | and | andi | or | ori | xor | xori | nor | lui => exact ⟨_, rfl, effectKeepsControl_setGpr _ _⟩
  | sll | sllv | sra | srav | srl | srlv | mfhi | mflo => exact ⟨_, rfl, effectKeepsControl_setGpr _ _⟩
  | movn | movz => exact ⟨_, rfl, effectKeepsControl_ok (.ite (s.keepsControl_setGpr _ _) s.keepsControl_self)⟩
  | mult | multu => exact ⟨_, rfl, effectKeepsControl_ok (s.keepsControl_self.setHiLo _ _)⟩
  | mul => exact ⟨_, rfl, effectKeepsControl_ok ((s.keepsControl_setGpr _ _).setHiLo _ _)⟩
  | div => exact ⟨_, rfl, effectKeepsControl_ok (keepsControl_divideSigned _ _ _)⟩
  | divu => exact ⟨_, rfl, effectKeepsControl_ok (keepsControl_divideUnsigned _ _ _)⟩
  | addS | subS | mulS | divS => exact ⟨_, rfl, (effectKeepsControl_fpFinish _ _).ifCp1Usable⟩
  | movS | mtc1 => exact ⟨_, rfl, (effectKeepsControl_setFpr _ _).ifCp1Usable⟩
  | mfc1 => exact ⟨_, rfl, (effectKeepsControl_setGpr _ _).ifCp1Usable⟩
  | negS =>
    exact ⟨_, rfl, (((effectKeepsControl_error _).ite (effectKeepsControl_setFpr _ _)).ite
      ((effectKeepsControl_error _).ite (effectKeepsControl_setFpr _ _))).ifCp1Usable⟩
  | lb | lbu | lw => exact ⟨_, rfl, effectKeepsControl_mapRead _ fun _ => s.keepsControl_setGpr _ _⟩
  | lwc1 => exact ⟨_, rfl, (effectKeepsControl_mapRead _ fun _ => s.keepsControl_setFpr _ _).ifCp1Usable⟩
  | sb => exact ⟨_, rfl, effectKeepsControl_memWrite1 _ _⟩
  | sw => exact ⟨_, rfl, effectKeepsControl_memWrite4 _ _⟩
  | swc1 => exact ⟨_, rfl, (effectKeepsControl_memWrite4 _ _).ifCp1Usable⟩
  | syscall => exact ⟨.error (plainCause .systemCall), rfl, effectKeepsControl_error _⟩

/-- If `r` completes, it is a `branchTo` after, at most, the write of a link register. -/
def EndsInBranchTo (s : State) (r : Result) : Prop :=
  ∀ t, r = .next t → ∃ u target, s.KeepsControl u ∧ t = u.branchTo target

theorem endsInBranchTo_branchTo {s u : State} (h : s.KeepsControl u) (target : Word) :
    EndsInBranchTo s (.next (u.branchTo target)) := by
  rintro _ ⟨⟩
  exact ⟨u, target, h, rfl⟩

/-- A branch not taken is a `branchTo` too, to the address after its delay slot. -/
theorem endsInBranchTo_conditional (s : State) (taken : Bool) (target : Word) :
    EndsInBranchTo s (.next (if taken then s.branchTo target else s.noBranch)) := by
  cases taken
  · exact endsInBranchTo_branchTo s.keepsControl_self (s.npc + 4#32)
  · exact endsInBranchTo_branchTo s.keepsControl_self target

/-- JALR: a fault when its two registers are the same, else the transfer (43_branch_jump.md R162). -/
theorem endsInBranchTo_jalr (s : State) (rd rs : Reg) :
    EndsInBranchTo s (if rs = rd then .fault .jalrSameRegister
      else .next ((s.setX rd (returnLink s.pc)).branchTo (s.x .first rs))) := by
  split
  · rintro _ ⟨⟩
  · exact endsInBranchTo_branchTo (s.keepsControl_setGpr _ _) _

/-- Each of the ten control transfers is a `branchTo` under the delay-slot guard. -/
theorem exec_eq_unlessInDelaySlot (i : Instr) (s : State) (hi : i.isControlTransfer = true) :
    ∃ r, exec i s = unlessInDelaySlot s r ∧ EndsInBranchTo s r := by
  cases i with
  | beq | bne | bgez | bgtz | blez | bltz => exact ⟨_, rfl, endsInBranchTo_conditional _ _ _⟩
  | j | jr => exact ⟨_, rfl, endsInBranchTo_branchTo s.keepsControl_self _⟩
  | jal => exact ⟨_, rfl, endsInBranchTo_branchTo (s.keepsControl_setGpr _ _) _⟩
  | jalr => exact ⟨_, rfl, endsInBranchTo_jalr _ _ _⟩
  | _ => cases hi

/-! ## What a completed instruction does -/

/-- An instruction that is no control transfer completes with the sequential advance. -/
theorem exec_next_advance {i : Instr} {s t : State} (hi : i.isControlTransfer = false) (h : exec i s = .next t) :
    ∃ u, s.KeepsControl u ∧ t = u.advance := by
  obtain ⟨e, heq, hkeeps⟩ := exec_eq_finish i s hi
  obtain ⟨u, hu, rfl⟩ := (finish_next s t i e).1 (heq ▸ h)
  exact ⟨u, hkeeps u hu, rfl⟩

/-- A control transfer completes only outside a delay slot, and then with a `branchTo`. -/
theorem exec_next_branchTo {i : Instr} {s t : State} (hi : i.isControlTransfer = true) (h : exec i s = .next t) :
    s.ds = false ∧ ∃ u target, s.KeepsControl u ∧ t = u.branchTo target := by
  obtain ⟨r, heq, hbranch⟩ := exec_eq_unlessInDelaySlot i s hi
  obtain ⟨hds, hr⟩ := (unlessInDelaySlot_next s t r).1 (heq ▸ h)
  exact ⟨hds, hbranch t hr⟩

/-- Settles O22: a control transfer ends in a `branchTo`, every other instruction in the sequential advance. -/
theorem controlFlowOfEveryStep : Obligations.ControlFlowOfEveryStep := by
  unfold Obligations.ControlFlowOfEveryStep
  intro i s t h
  cases hi : i.isControlTransfer
  case false =>
    obtain ⟨u, hu, rfl⟩ := exec_next_advance hi h
    simp [hu.npc]
  case true =>
    obtain ⟨-, u, target, hu, rfl⟩ := exec_next_branchTo hi h
    simp [hu.npc]

end Sys2Proof.Machine
end

section
/-! PROOFS. What a completed instruction writes (10_state.md R21, R22, R29, R35; 20_memory.md R41, R50;
44_multiply_divide.md R170).

`Writes i s u` says that `u` comes from `s` by writes that the tables give to `i` and by nothing else. One pass over
the instructions, `exec_writes`, shows that every completed instruction is such writes, after which only `pc`, `npc`,
`ds` and the draw counter move. The frames of GPRs, FPRs, HI and LO follow by induction over the writes. -/

namespace Sys2Proof.Machine

open Statements

/-! ## Writes an instruction may make -/

/-- What `i` may leave in a GPR: a value, or what it copied or loaded (10_state.md R35; log entry 25). -/
def GprSource (i : Instr) (c : Contents) : Prop :=
  (∃ v, c = .holds v) ∨ i.mnemonic ∈ ["MFHI", "MFLO", "LB", "LBU", "LW", "MOVN", "MOVZ", "MFC1"]

/-- What `i` may leave in an FPR: a value, what it copied or loaded, or some NaN (10_state.md R35;
41_floating_point.md R124). -/
def FprSource (i : Instr) (c : Contents) : Prop :=
  (∃ v, c = .holds v) ∨ i.mnemonic ∈ ["LWC1", "MOV.S", "MTC1"] ∨
    (c = .someNaN ∧ i.mnemonic ∈ ["ADD.S", "SUB.S", "MUL.S", "DIV.S", "NEG.S"])

/-- What `i` may leave in HI or LO: no known value from three instructions alone (44_multiply_divide.md R173, R175,
R176). -/
def HiLoSource (i : Instr) (c : SpecialReg) : Prop := c = .unspecified → i.mnemonic ∈ ["MUL", "DIV", "DIVU"]

/-- `i` stores to the byte at `a` when it runs at `s` (20_memory.md R41, R50). -/
def StoresTo (i : Instr) (s : State) (a : Word) : Prop :=
  ∃ n base offset, storedBytes i = some (n, base, offset) ∧
    (effectiveAddress (s.x .first base) offset).toNat ≤ a.toNat ∧
    a.toNat < (effectiveAddress (s.x .first base) offset).toNat + n

/-- `u` comes from `s` by writes that the tables of 10_state.md R22 and R29, 44_multiply_divide.md R170 and
20_memory.md R41 give to `i`. -/
inductive Writes (i : Instr) (s : State) : State → Prop where
  | nothing : Writes i s s
  | gpr {u : State} {rd : Reg} {c : Contents} (before : Writes i s u) (dest : gprDest i = some rd)
      (source : GprSource i c) : Writes i s (u.setGpr rd c)
  | fpr {u : State} {fd : FReg} {c : Contents} (before : Writes i s u) (dest : fprDest i = some fd)
      (source : FprSource i c) : Writes i s (u.setFpr fd c)
  | hiLo {u : State} {hi lo : SpecialReg} (before : Writes i s u) (writes : writesHiLo i = true)
      (hiSource : HiLoSource i hi) (loSource : HiLoSource i lo) : Writes i s (u.setHiLo hi lo)
  | byte {u : State} {a : Word} (before : Writes i s u) (dest : StoresTo i s a) (b : Byte) :
      Writes i s (u.storeByte a b)

section frames
variable {i : Instr} {s u : State}

/-- A GPR holds what it held, or is the destination of `i`. -/
theorem Writes.gprAt (h : Writes i s u) (r : Reg) :
    u.gprAt r = s.gprAt r ∨ (gprDest i = some r ∧ r ≠ 0#5 ∧ GprSource i (u.gprAt r)) := by
  induction h with
  | nothing => exact .inl rfl
  | @gpr u rd c _ dest source ih =>
    by_cases h0 : r = 0#5
    · subst h0
      exact .inl rfl
    · rw [State.gprAt_setGpr, if_neg h0]
      split
      · rename_i hrd
        exact .inr ⟨hrd ▸ dest, h0, source⟩
      · exact ih
  | fpr _ _ _ ih | hiLo _ _ _ _ ih | byte _ _ _ ih => exact ih

/-- An FPR holds what it held, or is the destination of `i`. -/
theorem Writes.fprAt (h : Writes i s u) (r : FReg) :
    u.fprAt r = s.fprAt r ∨ (fprDest i = some r ∧ FprSource i (u.fprAt r)) := by
  induction h with
  | nothing => exact .inl rfl
  | gpr _ _ _ ih => simpa using ih
  | @fpr u fd c _ dest source ih =>
    rw [State.fprAt_setFpr]
    split
    · rename_i hfd
      exact .inr ⟨hfd ▸ dest, source⟩
    · exact ih
  | hiLo _ _ _ _ ih | byte _ _ _ ih => exact ih

/-- HI and LO hold what they held, or `i` is one of the five that write them. -/
theorem Writes.hiLo_eq (h : Writes i s u) :
    (u.hi = s.hi ∧ u.lo = s.lo) ∨ (writesHiLo i = true ∧ HiLoSource i u.hi ∧ HiLoSource i u.lo) := by
  induction h with
  | nothing => exact .inl ⟨rfl, rfl⟩
  | gpr _ _ _ ih => simpa using ih
  | hiLo _ writes hiSource loSource _ => exact .inr ⟨writes, hiSource, loSource⟩
  | fpr _ _ _ ih | byte _ _ _ ih => exact ih

/-- The storage behind GPR 0 is never written (10_state.md R21). -/
theorem Writes.gpr_zero (h : Writes i s u) : u.gpr[0] = s.gpr[0] := by
  induction h with
  | nothing => rfl
  | gpr _ _ _ ih => simpa using ih
  | fpr _ _ _ ih | hiLo _ _ _ _ ih | byte _ _ _ ih => exact ih

end frames

/-! ## The writes of a shared operation -/

/-- An effect that raises nothing makes only writes that `i` may make. -/
def EffectWrites (i : Instr) (s : State) (e : Except Cause State) : Prop := ∀ u, e = .ok u → Writes i s u

theorem gprSource_holds {i : Instr} (v : Word) : GprSource i (.holds v) := .inl ⟨v, rfl⟩

theorem fprSource_holds {i : Instr} (v : Word) : FprSource i (.holds v) := .inl ⟨v, rfl⟩

theorem hiLoSource_holds {i : Instr} (v : Word) : HiLoSource i (.holds v) := by rintro ⟨⟩

section effects
variable {i : Instr} {s : State}

theorem effectWrites_ok {u : State} (h : Writes i s u) : EffectWrites i s (.ok u) := by
  rintro _ ⟨⟩
  exact h

theorem effectWrites_error (c : Cause) : EffectWrites i s (.error c) := by
  rintro _ ⟨⟩

theorem effectWrites_gpr {rd : Reg} {c : Contents} (dest : gprDest i = some rd) (source : GprSource i c) :
    EffectWrites i s (.ok (s.setGpr rd c)) := effectWrites_ok (Writes.nothing.gpr dest source)

theorem effectWrites_setX {rd : Reg} {v : Word} (dest : gprDest i = some rd) : EffectWrites i s (.ok (s.setX rd v)) :=
  effectWrites_gpr dest (gprSource_holds v)

theorem effectWrites_fpr {fd : FReg} {c : Contents} (dest : fprDest i = some fd) (source : FprSource i c) :
    EffectWrites i s (.ok (s.setFpr fd c)) := effectWrites_ok (Writes.nothing.fpr dest source)

theorem EffectWrites.ite {d e : Except Cause State} {p : Prop} [Decidable p] (hd : EffectWrites i s d)
    (he : EffectWrites i s e) : EffectWrites i s (if p then d else e) := by
  split
  · exact hd
  · exact he

theorem EffectWrites.ifCp1Usable {e : Except Cause State} (h : EffectWrites i s e) :
    EffectWrites i s (ifCp1Usable s e) := .ite h (effectWrites_error _)

theorem effectWrites_writeOrTrap {rd : Reg} {n : Int} (dest : gprDest i = some rd) :
    EffectWrites i s (writeOrTrap s rd n) := .ite (effectWrites_error _) (effectWrites_setX dest)

/-- MOVN and MOVZ copy or do nothing. -/
theorem effectWrites_conditionalMove {rd rs : Reg} {p : Prop} [Decidable p] (dest : gprDest i = some rd)
    (source : GprSource i (s.gprAt rs)) : EffectWrites i s (.ok (if p then s.setGpr rd (s.gprAt rs) else s)) := by
  split
  · exact effectWrites_gpr dest source
  · exact effectWrites_ok .nothing

/-- A load: whatever it read, the register it may write gets it. -/
theorem effectWrites_mapRead {α : Type} {e : Except Cause α} {g : α → State} (h : ∀ a, Writes i s (g a)) :
    EffectWrites i s (e.map g) := by
  intro u hu
  obtain ⟨a, -, rfl⟩ := (mapRead_ok e g u).1 hu
  exact h a

/-- The result of the four operations is a value or some NaN. -/
theorem effectWrites_fpFinish {fd : FReg} {r : FpResult × FpFacts} (dest : fprDest i = some fd)
    (hi : i.mnemonic ∈ ["ADD.S", "SUB.S", "MUL.S", "DIV.S", "NEG.S"]) : EffectWrites i s (fpFinish s fd r) := by
  intro u hu
  obtain ⟨-, rfl⟩ := (fpFinish_ok s u fd r).1 hu
  refine Writes.nothing.fpr dest ?_
  cases r.1 with
  | bits w => exact fprSource_holds w
  | someNaN => exact .inr (.inr ⟨rfl, hi⟩)

theorem Writes.unspecifyHiLo {u : State} (h : Writes i s u) (writes : writesHiLo i = true)
    (hi : i.mnemonic ∈ ["MUL", "DIV", "DIVU"]) : Writes i s u.unspecifyHiLo :=
  h.hiLo writes (fun _ => hi) (fun _ => hi)

theorem Writes.hiLoValues {u : State} (h : Writes i s u) (writes : writesHiLo i = true) (v w : Word) :
    Writes i s (u.setHiLo (.holds v) (.holds w)) := h.hiLo writes (hiLoSource_holds v) (hiLoSource_holds w)

theorem writes_divideSigned {rs rt : Reg} (a b : Int) : Writes (.div rs rt) s (divideSigned s a b) := by
  have unspecified : Writes (.div rs rt) s s.unspecifyHiLo :=
    Writes.nothing.unspecifyHiLo rfl (by simp [Instr.mnemonic])
  unfold divideSigned
  split
  · exact unspecified
  · split
    · exact unspecified
    · exact Writes.nothing.hiLoValues rfl _ _

theorem writes_divideUnsigned {rs rt : Reg} (a b : Nat) : Writes (.divu rs rt) s (divideUnsigned s a b) := by
  unfold divideUnsigned
  split
  · exact Writes.nothing.unspecifyHiLo rfl (by simp [Instr.mnemonic])
  · exact Writes.nothing.hiLoValues rfl _ _

/-- The byte of SB is at the effective address. -/
theorem effectWrites_memWrite1 {base : Reg} {offset : Imm} {b : Byte}
    (dest : storedBytes i = some (1, base, offset)) :
    EffectWrites i s (memWrite1 s (effectiveAddress (s.x .first base) offset) b) := by
  intro u hu
  obtain ⟨-, rfl⟩ := (memWrite1_ok s u _ b).1 hu
  exact Writes.nothing.byte ⟨1, base, offset, dest, Nat.le_refl _, Nat.lt_succ_self _⟩ b

/-- Every byte of an aligned word is among the four from the effective address on. -/
theorem storesTo_of_mem_wordAddresses {base : Reg} {offset : Imm} {a : Word}
    (dest : storedBytes i = some (4, base, offset))
    (haligned : wordAligned (effectiveAddress (s.x .first base) offset) = true)
    (ha : a.toNat ∈ wordAddresses (effectiveAddress (s.x .first base) offset)) : StoresTo i s a := by
  rw [wordAddresses_aligned _ haligned] at ha
  simp only [List.mem_cons, List.not_mem_nil, or_false] at ha
  exact ⟨4, base, offset, dest, by omega, by omega⟩

/-- The four bytes of SW and SWC1. -/
theorem effectWrites_memWrite4 {base : Reg} {offset : Imm} {v : Word}
    (dest : storedBytes i = some (4, base, offset)) :
    EffectWrites i s (memWrite4 s (effectiveAddress (s.x .first base) offset) v) := by
  intro u hu
  obtain ⟨haligned, -, rfl⟩ := (memWrite4_ok s u _ v).1 hu
  have stores {a : Word} := storesTo_of_mem_wordAddresses (a := a) dest haligned
  exact (((Writes.nothing.byte (stores (by simp [wordAddresses])) _).byte (stores (by simp [wordAddresses])) _).byte
    (stores (by simp [wordAddresses])) _).byte (stores (by simp [wordAddresses])) _

end effects

/-! ## The writes of every instruction -/

/-- `t` is `u` with only `pc`, `npc`, `ds` and the draw counter moved. -/
def State.MovesOnTo (u t : State) : Prop :=
  ∃ pc npc ds draws, t = { u with pc := pc, npc := npc, ds := ds, draws := draws }

/-- If `r` completes, it made only writes that `i` may make, and moved on. -/
def OnlyWrites (i : Instr) (s : State) (r : Result) : Prop :=
  ∀ t, r = .next t → ∃ u, Writes i s u ∧ u.MovesOnTo t

section results
variable {i : Instr} {s : State}

theorem onlyWrites_finish {e : Except Cause State} (h : EffectWrites i s e) : OnlyWrites i s (finish s i e) := by
  intro t ht
  obtain ⟨u, hu, rfl⟩ := (finish_next s t i e).1 ht
  exact ⟨u, h u hu, _, _, _, _, rfl⟩

theorem OnlyWrites.unlessInDelaySlot {r : Result} (h : OnlyWrites i s r) :
    OnlyWrites i s (unlessInDelaySlot s r) :=
  fun t ht => h t ((unlessInDelaySlot_next s t r).1 ht).2

theorem onlyWrites_branchTo {u : State} (h : Writes i s u) (target : Word) :
    OnlyWrites i s (.next (u.branchTo target)) := by
  rintro _ ⟨⟩
  exact ⟨u, h, _, _, _, _, rfl⟩

theorem onlyWrites_conditionalBranch (taken : Bool) (offset : Imm) :
    OnlyWrites i s (conditionalBranch s taken offset) := by
  refine OnlyWrites.unlessInDelaySlot ?_
  cases taken
  · exact onlyWrites_branchTo .nothing (s.npc + 4#32)
  · exact onlyWrites_branchTo .nothing _

/-- The link of JAL and JALR, and then the transfer. -/
theorem onlyWrites_link {rd : Reg} (dest : gprDest i = some rd) (v target : Word) :
    OnlyWrites i s (.next ((s.setX rd v).branchTo target)) :=
  onlyWrites_branchTo (Writes.nothing.gpr dest (gprSource_holds v)) target

theorem onlyWrites_jalr (rd rs : Reg) : OnlyWrites (.jalr rd rs) s (execJalr rd rs s) := by
  refine OnlyWrites.unlessInDelaySlot ?_
  split
  · rintro _ ⟨⟩
  · exact onlyWrites_link rfl _ _

end results

/-- A completed instruction made only the writes its rows of the tables give it. -/
theorem exec_writes (i : Instr) (s : State) : OnlyWrites i s (exec i s) := by
  cases i with
  | add | addi | sub => exact onlyWrites_finish (effectWrites_writeOrTrap rfl)
  | addiu | addu | subu | slt | slti | sltiu | sltu => exact onlyWrites_finish (effectWrites_setX rfl)
  | and | andi | or | ori | xor | xori | nor | lui => exact onlyWrites_finish (effectWrites_setX rfl)
  | sll | sllv | sra | srav | srl | srlv => exact onlyWrites_finish (effectWrites_setX rfl)
  | mfhi | mflo => exact onlyWrites_finish (effectWrites_gpr rfl (.inr (by simp [Instr.mnemonic])))
  | movn | movz => exact onlyWrites_finish (effectWrites_conditionalMove rfl (.inr (by simp [Instr.mnemonic])))
  | mult | multu => exact onlyWrites_finish (effectWrites_ok (Writes.nothing.hiLoValues rfl _ _))
  | mul =>
    exact onlyWrites_finish (effectWrites_ok
      ((Writes.nothing.gpr rfl (gprSource_holds _)).unspecifyHiLo rfl (by simp [Instr.mnemonic])))
  | div => exact onlyWrites_finish (effectWrites_ok (writes_divideSigned _ _))
  | divu => exact onlyWrites_finish (effectWrites_ok (writes_divideUnsigned _ _))
  | addS | subS | mulS | divS =>
    exact onlyWrites_finish (effectWrites_fpFinish rfl (by simp [Instr.mnemonic])).ifCp1Usable
  | movS | mtc1 =>
    exact onlyWrites_finish (effectWrites_fpr rfl (.inr (.inl (by simp [Instr.mnemonic])))).ifCp1Usable
  | negS fd fs =>
    have someNaN : FprSource (.negS fd fs) .someNaN := .inr (.inr ⟨rfl, by simp [Instr.mnemonic]⟩)
    exact onlyWrites_finish (((effectWrites_error _).ite (effectWrites_fpr rfl someNaN)).ite
      ((effectWrites_error _).ite (effectWrites_fpr rfl (fprSource_holds _)))).ifCp1Usable
  | mfc1 => exact onlyWrites_finish (effectWrites_gpr rfl (.inr (by simp [Instr.mnemonic]))).ifCp1Usable
  | lb | lbu | lw =>
    exact onlyWrites_finish (effectWrites_mapRead fun _ => Writes.nothing.gpr rfl (.inr (by simp [Instr.mnemonic])))
  | lwc1 =>
    exact onlyWrites_finish
      (effectWrites_mapRead fun _ => Writes.nothing.fpr rfl (.inr (.inl (by simp [Instr.mnemonic])))).ifCp1Usable
  | sb => exact onlyWrites_finish (effectWrites_memWrite1 rfl)
  | sw => exact onlyWrites_finish (effectWrites_memWrite4 rfl)
  | swc1 => exact onlyWrites_finish (effectWrites_memWrite4 rfl).ifCp1Usable
  | beq | bne | bgez | bgtz | blez | bltz => exact onlyWrites_conditionalBranch _ _
  | j | jr => exact (onlyWrites_branchTo .nothing _).unlessInDelaySlot
  | jal => exact (onlyWrites_link rfl _ _).unlessInDelaySlot
  | jalr => exact onlyWrites_jalr _ _
  | syscall => exact onlyWrites_finish (e := .error (plainCause .systemCall)) (effectWrites_error _)

/-! ## The statements on registers -/

/-- Settles O20: the writes of an instruction go to its destination alone, and a write to GPR 0 is discarded. -/
theorem gprWriters : Obligations.GprWriters := by
  unfold Obligations.GprWriters
  refine ⟨fun i s t r h hne => ?_, State.gprAt_zero, State.x_zero, fun s c => rfl⟩
  obtain ⟨u, hw, _, _, _, _, rfl⟩ := exec_writes i s t h
  obtain ⟨dest, h0, -⟩ := (hw.gprAt r).resolve_left hne
  exact ⟨dest, h0⟩

/-- Settles O21: as O20, for FPRs, HI and LO. -/
theorem fprAndHiLoWriters : Obligations.FprAndHiLoWriters := by
  unfold Obligations.FprAndHiLoWriters
  intro i s t h
  obtain ⟨u, hw, _, _, _, _, rfl⟩ := exec_writes i s t h
  refine ⟨fun r hne => ((hw.fprAt r).resolve_left hne).1, fun hne => ?_⟩
  rcases hw.hiLo_eq with ⟨hhi, hlo⟩ | ⟨writes, -, -⟩
  · exact (hne.elim (· hhi) (· hlo)).elim
  · exact writes

end Sys2Proof.Machine
end

section
/-! PROOFS. Reads of registers that hold no value (10_state.md R35; 41_floating_point.md R124). A pattern of format S
is its sign, exponent and fraction; a drawn NaN has exponent 255 and a fraction that is not 0, and every NaN is its
own draw. -/

namespace Sys2Proof.Machine

/-! ## The pattern of a draw -/

theorem fpExponent_append (sign : BitVec 1) (e : BitVec 8) (m : BitVec 23) :
    fpExponent (sign ++ e ++ m) = e.toNat := by
  have h : (sign ++ e ++ m).extractLsb' 23 8 = e := by grind
  exact congrArg BitVec.toNat h

theorem fpFraction_append (sign : BitVec 1) (e : BitVec 8) (m : BitVec 23) :
    fpFraction (sign ++ e ++ m) = m.toNat := by
  have h : (sign ++ e ++ m).extractLsb' 0 23 = m := by grind
  exact congrArg BitVec.toNat h

/-- A pattern is its sign, its exponent and its fraction (41_floating_point.md R120). -/
theorem fpFields_append (w : Word) :
    BitVec.ofBool (fpSign w) ++ BitVec.ofNat 8 (fpExponent w) ++ BitVec.ofNat 23 (fpFraction w) = w := by
  simp only [fpExponent, fpFraction, fpSign, BitVec.ofNat_toNat, BitVec.setWidth_eq]
  grind

theorem isNaN_iff (w : Word) : isNaN w = true ↔ fpExponent w = 255 ∧ fpFraction w ≠ 0 := by simp [isNaN]

/-- The fraction of a drawn pattern is not 0. -/
theorem drawnFraction_ne_zero (d : Word) :
    (if fpFraction d = 0 then 1#23 else BitVec.ofNat 23 (fpFraction d)).toNat ≠ 0 := by
  have hlt : fpFraction d < 2 ^ 23 := BitVec.isLt _
  split
  · decide
  · rw [BitVec.toNat_ofNat, Nat.mod_eq_of_lt hlt]
    assumption

theorem isNaN_nanOfDraw (d : Word) : isNaN (nanOfDraw d) = true :=
  (isNaN_iff _).2 ⟨fpExponent_append _ _ _, (fpFraction_append _ _ _).trans_ne (drawnFraction_ne_zero d)⟩

/-- A NaN drawn is itself. -/
theorem nanOfDraw_of_isNaN (w : Word) (h : isNaN w = true) : nanOfDraw w = w := by
  obtain ⟨hexp, hfrac⟩ := (isNaN_iff w).1 h
  have hfields := fpFields_append w
  rw [hexp] at hfields
  rw [nanOfDraw, if_neg hfrac]
  exact hfields

/-- Settles O57: the patterns of the draws are the NaN patterns. -/
theorem freeNaNIsAnyNaN : Obligations.FreeNaNIsAnyNaN := by
  unfold Obligations.FreeNaNIsAnyNaN
  exact ⟨fun s k => ⟨s.value_someNaN k, isNaN_nanOfDraw _⟩, isNaN_nanOfDraw, fun w h => ⟨w, nanOfDraw_of_isNaN w h⟩⟩

/-! ## What a read gives -/

theorem State.x_of_unspecified (s : State) (k : Operand) (r : Reg) (h : s.gprAt r = .unspecified) :
    s.x k r = Config.freeWord s.draws k := by
  simp [State.x, h]

theorem State.f_of_unspecified (s : State) (k : Operand) (r : FReg) (h : s.fprAt r = .unspecified) :
    s.f k r = Config.freeWord s.draws k := by
  simp [State.f, h]

theorem State.x_of_someNaN (s : State) (k : Operand) (r : Reg) (h : s.gprAt r = .someNaN) :
    s.x k r = nanOfDraw (Config.freeNaN s.draws k) := by
  simp [State.x, h]

theorem State.f_of_someNaN (s : State) (k : Operand) (r : FReg) (h : s.fprAt r = .someNaN) :
    s.f k r = nanOfDraw (Config.freeNaN s.draws k) := by
  simp [State.f, h]

/-- A GPR that holds no value is not GPR 0 (10_state.md R35). -/
theorem State.ne_zero_of_gprAt_ne_zero (s : State) (r : Reg) (h : s.gprAt r ≠ .holds 0#32) : r ≠ 0#5 := by
  rintro rfl
  exact h s.gprAt_zero

/-! ## Draws -/

/-- A completed instruction uses up its draws. -/
theorem exec_draws {i : Instr} {s t : State} (h : exec i s = .next t) : t.draws = s.draws + 1 := by
  cases hi : i.isControlTransfer
  case false =>
    obtain ⟨u, hu, rfl⟩ := exec_next_advance hi h
    simp [hu.draws]
  case true =>
    obtain ⟨-, u, target, hu, rfl⟩ := exec_next_branchTo hi h
    simp [hu.draws]

theorem runsTo_draws (n : Nat) (s t : State) (h : RunsTo n s t) : t.draws = s.draws + n := by
  induction n generalizing s with
  | zero => exact congrArg State.draws (Eq.symm h)
  | succ n ih =>
    obtain ⟨u, hstep, hrun⟩ := h
    obtain ⟨i, -, hexec⟩ := (step_next s u).1 hstep
    rw [ih u hrun, exec_draws hexec]
    omega

/-- Settles O60: the reads by what the register holds, the draws by induction over the run, and the sources of what a
register holds by the writes of the instruction. -/
theorem unspecifiedRegisters : Obligations.UnspecifiedRegisters := by
  unfold Obligations.UnspecifiedRegisters
  refine ⟨fun s k r q => ⟨s.x_of_holds k r, s.f_of_holds k q, fun h => ?_, s.f_of_unspecified k q, fun h => ?_,
    fun h => ?_⟩, runsTo_draws, fun i s t h => ?_⟩
  · exact ⟨s.x_of_unspecified k r h, s.ne_zero_of_gprAt_ne_zero r (by simp [h])⟩
  · have hx := s.x_of_someNaN k r h
    exact ⟨hx, hx ▸ isNaN_nanOfDraw _, s.ne_zero_of_gprAt_ne_zero r (by simp [h])⟩
  · have hf := s.f_of_someNaN k q h
    exact ⟨hf, hf ▸ isNaN_nanOfDraw _⟩
  · obtain ⟨u, hw, _, _, _, _, rfl⟩ := exec_writes i s t h
    refine ⟨fun r hne => ?_, fun r hne => ?_, fun hne => ?_, fun hne => ?_⟩
    · exact ((hw.gprAt r).resolve_left hne).2.2
    · exact ((hw.fprAt r).resolve_left hne).2
    · exact (hw.hiLo_eq.resolve_left fun h => hne h.1).2.1
    · exact (hw.hiLo_eq.resolve_left fun h => hne h.2).2.2

end Sys2Proof.Machine
end

section
/-! PROOFS. The invariant of the machine: a launch meets it, every step keeps it (10_state.md R21, R27, R34;
20_memory.md R40, R48, R50). Its part on memory and WRITTEN is kept byte by byte; its part on control flow follows
from where control goes. Then the step itself, in terms of the four bytes at `pc` (10_state.md R26). -/

namespace Sys2Proof.Machine

/-! ## Memory and WRITTEN -/

/-- The part of the invariant that a store touches. -/
structure MemoryInv (s : State) : Prop where
  memory : s.mem.wf
  writtenWf : addressesWf s.written
  writtenSpecified : ∀ a ∈ s.written, s.mem.read a ≠ none

theorem addressesWf_insertAddress {a : Nat} {l : List Nat} (ha : a < 2 ^ 32) (h : addressesWf l) :
    addressesWf (insertAddress a l) := by
  refine ⟨insertAddress_sorted a l h.1, fun c hc => ?_⟩
  rcases (mem_insertAddress a c l).1 hc with rfl | hc
  · exact ha
  · exact h.2 c hc

/-- A byte stored is in memory and in WRITTEN. -/
theorem MemoryInv.storeByte {s : State} (h : MemoryInv s) (a : Word) (b : Byte) : MemoryInv (s.storeByte a b) where
  memory := s.storeByte_wf a b h.memory
  writtenWf := addressesWf_insertAddress a.isLt h.writtenWf
  writtenSpecified c hc := by
    rw [State.storeByte_mem, Memory.read_write]
    split
    · exact Option.some_ne_none b
    · rename_i hne
      exact h.writtenSpecified c (((mem_insertAddress a.toNat c s.written).1 hc).resolve_left hne)

/-- Only a store of a byte touches memory or WRITTEN. -/
theorem Writes.memoryInv {i : Instr} {s u : State} (h : Writes i s u) (hs : MemoryInv s) : MemoryInv u := by
  induction h with
  | nothing => exact hs
  | gpr _ _ _ ih => exact ⟨by simpa using ih.memory, by simpa using ih.writtenWf, by simpa using ih.writtenSpecified⟩
  | fpr _ _ _ ih | hiLo _ _ _ _ ih => exact ⟨ih.memory, ih.writtenWf, ih.writtenSpecified⟩
  | byte _ _ b ih => exact ih.storeByte _ b

/-! ## Control flow -/

/-- A word after an aligned one is aligned. -/
theorem wordAligned_add_four {a : Word} (h : wordAligned a = true) : wordAligned (a + 4#32) = true := by
  rw [wordAligned_iff] at *
  rw [BitVec.toNat_add, BitVec.toNat_ofNat]
  omega

/-- Outside a delay slot the next instruction is the next word: only a control transfer ends with `ds` true. -/
theorem exec_sequential {i : Instr} {s t : State} (h : exec i s = .next t) (hds : t.ds = false) :
    t.npc = t.pc + 4#32 := by
  obtain ⟨hpc, htransfer, hnpc⟩ := controlFlowOfEveryStep i s t h
  have hi : i.isControlTransfer = false := by
    rw [← Bool.not_eq_true, ← htransfer, hds]
    exact Bool.false_ne_true
  rw [hnpc hi, hpc]

/-- The delay slot follows a control transfer that was fetched and stood in no delay slot itself. -/
theorem exec_slotAligned {i : Instr} {s t : State} (h : exec i s = .next t) (hpc : wordAligned s.pc = true)
    (hsequential : s.ds = false → s.npc = s.pc + 4#32) (hds : t.ds = true) : wordAligned t.pc = true := by
  obtain ⟨htpc, htransfer, -⟩ := controlFlowOfEveryStep i s t h
  obtain ⟨hsds, -⟩ := exec_next_branchTo (htransfer.1 hds) h
  rw [htpc, hsequential hsds]
  exact wordAligned_add_four hpc

/-- A fetched instruction stands at a word-aligned `pc` (20_memory.md R48). -/
theorem wordAligned_of_fetchInstr_ok {s : State} {i : Instr} (h : fetchInstr s = .ok i) : wordAligned s.pc = true := by
  obtain ⟨w, hw, -⟩ := (fetchInstr_ok s i).1 h
  exact ((fetchWord_ok s w).1 hw).1

/-! ## The invariant -/

/-- Settles O15: memory, WRITTEN and GPR 0 by the writes of the instruction, `npc` and the delay slot by where control
goes. -/
theorem stepKeepsInvariant : Obligations.StepKeepsInvariant := by
  unfold Obligations.StepKeepsInvariant
  intro s t hs hstep
  obtain ⟨i, hfetch, hexec⟩ := (step_next s t).1 hstep
  have hsequential := exec_sequential hexec
  have hslot := exec_slotAligned hexec (wordAligned_of_fetchInstr_ok hfetch) hs.sequential
  obtain ⟨u, hw, _, _, _, _, rfl⟩ := exec_writes i s t hexec
  obtain ⟨memory, writtenWf, writtenSpecified⟩ :=
    hw.memoryInv ⟨hs.memory, hs.writtenWf, hs.writtenSpecified⟩
  exact ⟨memory, writtenWf, writtenSpecified, hw.gpr_zero.trans hs.gprZero, hsequential, hslot⟩

/-- A launch with a canonical image meets the invariant (10_state.md R34). -/
theorem machineInv_launch (p : Params) (r : Registers) {image : Memory} (h : image.wf) :
    MachineInv (State.launch p r image) where
  memory := h
  writtenWf := ⟨List.Pairwise.nil, fun _ ha => absurd ha List.not_mem_nil⟩
  writtenSpecified _ ha := absurd ha List.not_mem_nil
  gprZero := Vector.getElem_set_self _
  sequential _ := rfl
  slotAligned hds := absurd hds Bool.false_ne_true

/-- A launch gives every GPR but GPR 0 what it is given. -/
theorem gprAt_launch (p : Params) (r : Registers) (image : Memory) (q : Reg) (hq : q ≠ 0#5) :
    (State.launch p r image).gprAt q = r.gpr[q.toNat]'q.isLt := by
  have hn : 0 ≠ q.toNat := fun e => hq (BitVec.eq_of_toNat_eq e.symm)
  rw [State.gprAt, if_neg hq]
  exact Vector.getElem_set_ne (by decide) q.isLt hn

/-- Settles O16: the fields of a launch are the ones it is given. -/
theorem launchMeetsInvariant : Obligations.LaunchMeetsInvariant := by
  unfold Obligations.LaunchMeetsInvariant
  refine ⟨fun p r image h => ⟨machineInv_launch p r h, State.gprAt_zero _, gprAt_launch p r image, rfl, rfl, rfl, rfl,
    rfl, rfl, rfl, rfl, rfl⟩, machineInv_launch _ _ State.reset_mem_wf⟩

/-! ## The step at four given bytes -/

/-- The last byte of an aligned word is still inside the address space: no address of the word wraps. -/
theorem toNat_add_of_wordAligned {a : Word} (h : wordAligned a = true) :
    (a + 1#32).toNat = a.toNat + 1 ∧ (a + 2#32).toNat = a.toNat + 2 ∧ (a + 3#32).toNat = a.toNat + 3 := by
  simpa [wordAddresses] using wordAddresses_aligned a h

/-- Settles O6: the fetch succeeds with the word of the four bytes. -/
theorem stepRunsDecodedInstruction : Obligations.StepRunsDecodedInstruction := by
  unfold Obligations.StepRunsDecodedInstruction
  intro s b0 b1 b2 b3 i haligned hcheck hwritten h0 h1 h2 h3 hdecode
  obtain ⟨e1, e2, e3⟩ := toNat_add_of_wordAligned haligned
  have hword : s.mem.word? s.params.endian s.pc = some (assembleWord s.params.endian b0 b1 b2 b3) :=
    s.mem.word?_of_read _ _ b0 b1 b2 b3 h0 (e1 ▸ h1) (e2 ▸ h2) (e3 ▸ h3)
  have hfresh : ∀ a ∈ wordAddresses s.pc, a ∉ s.written := by
    rw [wordAddresses_aligned _ haligned]
    intro a ha hmem
    simp only [List.mem_cons, List.not_mem_nil, or_false] at ha
    have := hwritten a hmem
    omega
  have hfetch : fetchInstr s = .ok i :=
    (fetchInstr_ok s i).2 ⟨_, (fetchWord_ok s _).2 ⟨haligned, hcheck, hfresh, hword⟩, hdecode⟩
  rw [step, hfetch]

end Sys2Proof.Machine
end

section
/-! PROOFS. The answers of MemCheck (20_memory.md R42), and what stops a fetch (R48, R51, R56; 60_exceptions.md R237): a
misaligned `pc`, which only a jump through a register leaves behind, then MemCheck, WRITTEN and an unspecified byte. -/

namespace Sys2Proof.Machine

open Statements

/-! ## MemCheck -/

theorem isAccessName_readAnswerName (r : ReadAnswer) :
    isAccessName (readAnswerName r) ∧ readAnswerName r ≠ .tlbModified := by
  cases r <;> simp [readAnswerName, isAccessName]

theorem isAccessName_storeAnswerName (r : StoreAnswer) : isAccessName (storeAnswerName r) := by
  cases r <;> simp [storeAnswerName, isAccessName]

/-- Every name that MemCheck may give a store is the name of one of its answers. -/
theorem exists_storeAnswerName {n : ExceptionName} (h : isAccessName n) : ∃ r, storeAnswerName r = n := by
  rcases h with rfl | rfl | rfl | rfl | rfl | rfl
  · exact ⟨.addressError, rfl⟩
  · exact ⟨.tlbRefill, rfl⟩
  · exact ⟨.tlbInvalid, rfl⟩
  · exact ⟨.tlbModified, rfl⟩
  · exact ⟨.busError, rfl⟩
  · exact ⟨.watch, rfl⟩

/-- For a load or a fetch, every name but TLBModified. -/
theorem exists_readAnswerName {n : ExceptionName} (h : isAccessName n) (hn : n ≠ .tlbModified) :
    ∃ r, readAnswerName r = n := by
  rcases h with rfl | rfl | rfl | rfl | rfl | rfl
  · exact ⟨.addressError, rfl⟩
  · exact ⟨.tlbRefill, rfl⟩
  · exact ⟨.tlbInvalid, rfl⟩
  · exact absurd rfl hn
  · exact ⟨.busError, rfl⟩
  · exact ⟨.watch, rfl⟩

/-- An answer of MemCheck is one of the six names, TLBModified for a store only. -/
theorem memCheck_eq_some {s : State} {a : Word} {w : Width} {k : AccessKind} {n : ExceptionName}
    (h : memCheck s a w k = some n) : isAccessName n ∧ (n = .tlbModified → k = .store) := by
  cases k with
  | load | fetch =>
    obtain ⟨r, -, rfl⟩ := Option.map_eq_some_iff.1 h
    exact ⟨(isAccessName_readAnswerName r).1, fun hn => absurd hn (isAccessName_readAnswerName r).2⟩
  | store =>
    obtain ⟨r, -, rfl⟩ := Option.map_eq_some_iff.1 h
    exact ⟨isAccessName_storeAnswerName r, fun _ => rfl⟩

/-- MemCheck asks the parameters of the launch alone. -/
theorem memCheck_congr {s t : State} (h : s.params = t.params) (a : Word) (w : Width) (k : AccessKind) :
    memCheck s a w k = memCheck t a w k := by
  cases k <;> simp only [memCheck, h]

/-- The rule that answers one access, at one address and of one width, as `f` does. -/
def pointRule {α : Type} (f : Word → Width → Option α) (access : Word × Width) : CheckRule α where
  lo := access.1
  hi := access.1
  width := access.2
  answer := f access.1 access.2

/-- A point rule covers its own access and no other. -/
theorem pointRule_covers {α : Type} (f : Word → Width → Option α) (access : Word × Width) (a : Word) (w : Width) :
    ((pointRule f access).width == w && decide ((pointRule f access).lo ≤ a) && decide (a ≤ (pointRule f access).hi)) =
      true ↔ access = (a, w) := by
  obtain ⟨b, v⟩ := access
  have hpoint : b ≤ a ∧ a ≤ b ↔ b = a :=
    ⟨fun h => BitVec.le_antisymm h.1 h.2, fun h => ⟨BitVec.le_of_eq h, BitVec.le_of_eq h.symm⟩⟩
  rw [Bool.and_assoc, Bool.and_eq_true, Bool.and_eq_true, beq_iff_eq, decide_eq_true_iff, decide_eq_true_iff,
    Prod.mk.injEq, and_comm]
  exact and_congr_left' hpoint

/-- A table of point rules answers each access that it lists as `f` does. -/
theorem checkTable_pointRules {α : Type} (f : Word → Width → Option α) {accesses : List (Word × Width)} {a : Word}
    {w : Width} (h : (a, w) ∈ accesses) :
    checkTable { rules := accesses.map (pointRule f), otherwise := none } a w = f a w := by
  unfold checkTable
  split
  · rename_i r hr
    obtain ⟨access, -, rfl⟩ := List.mem_map.1 (List.mem_of_find?_eq_some hr)
    have hcovers := List.find?_some hr
    obtain rfl := (pointRule_covers f access a w).1 hcovers
    rfl
  · rename_i hnone
    exact absurd ((pointRule_covers f (a, w) a w).2 rfl) (List.find?_eq_none.1 hnone _ (List.mem_map_of_mem h))

/-- There are finitely many accesses, so a table holds any function of them (log entry 5). -/
theorem exists_checkTable {α : Type} (f : Word → Width → Option α) : ∃ t, ∀ a w, checkTable t a w = f a w := by
  obtain ⟨words, -, hwords⟩ := Finite.exists_univ_list Word
  refine ⟨{ rules := (words ×ˢ [.byte, .word]).map (pointRule f), otherwise := none }, fun a w => ?_⟩
  refine checkTable_pointRules f (List.mem_product.2 ⟨hwords a, ?_⟩)
  cases w <;> simp

/-- A table gives any function whose answers are all names of its answers. -/
theorem exists_checkTable_map {α : Type} (name : α → ExceptionName) (f : Word → Width → Option ExceptionName)
    (h : ∀ a w n, f a w = some n → ∃ r, name r = n) : ∃ t, ∀ a w, (checkTable t a w).map name = f a w := by
  have hanswer : ∀ a w, ∃ o : Option α, o.map name = f a w := by
    intro a w
    cases hf : f a w with
    | none => exact ⟨none, rfl⟩
    | some n =>
      obtain ⟨r, rfl⟩ := h a w n hf
      exact ⟨some r, rfl⟩
  choose answer hanswer using hanswer
  obtain ⟨t, ht⟩ := exists_checkTable answer
  exact ⟨t, fun a w => by rw [ht, hanswer]⟩

/-- Settles O8: the names by the answers of the three tables, and any function by a table with a rule for every
access. -/
theorem memCheckAnswers : Obligations.MemCheckAnswers := by
  unfold Obligations.MemCheckAnswers
  refine ⟨fun s a w k n => memCheck_eq_some, fun s t a w k h => memCheck_congr h a w k, fun check hcheck => ?_⟩
  have reads : ∀ k, k ≠ .store → ∀ a w n, check a w k = some n → ∃ r, readAnswerName r = n := by
    intro k hk a w n h
    obtain ⟨hname, hmodified⟩ := hcheck a w k n h
    exact exists_readAnswerName hname fun hn => hk (hmodified hn)
  obtain ⟨load, hload⟩ := exists_checkTable_map readAnswerName (check · · .load) (reads .load (by simp))
  obtain ⟨store, hstore⟩ := exists_checkTable_map storeAnswerName (check · · .store)
    fun a w n h => exists_storeAnswerName (hcheck a w .store n h).1
  obtain ⟨fetch, hfetch⟩ := exists_checkTable_map readAnswerName (check · · .fetch) (reads .fetch (by simp))
  refine ⟨{ load, store, fetch }, fun s hs a w k => ?_⟩
  cases k with
  | load => simpa [memCheck, hs] using hload a w
  | store => simpa [memCheck, hs] using hstore a w
  | fetch => simpa [memCheck, hs] using hfetch a w

/-! ## What stops a fetch -/

theorem wordAligned_eq_false_iff (a : Word) : wordAligned a = false ↔ a.toNat % 4 ≠ 0 := by
  rw [← Bool.not_eq_true, wordAligned_iff]

/-- The bytes of an aligned word, as numbers. -/
theorem mem_wordAddresses_iff {a : Word} (h : wordAligned a = true) (c : Nat) :
    c ∈ wordAddresses a ↔ ∃ k < 4, c = a.toNat + k := by
  rw [wordAddresses_aligned a h]
  simp only [List.mem_cons, List.not_mem_nil, or_false]
  constructor
  · intro hc
    exact ⟨c - a.toNat, by omega, by omega⟩
  · rintro ⟨k, hk, rfl⟩
    omega

section fetch
variable {s : State}

theorem fetchWord_misaligned (h : wordAligned s.pc = false) :
    fetchWord s = .error (exceptionFault s none (accessCause .addressError .fetch s.pc)) := by
  simp [fetchWord, h]

theorem fetchWord_refused {name : ExceptionName} (h : wordAligned s.pc = true)
    (hcheck : memCheck s s.pc .word .fetch = some name) :
    fetchWord s = .error (exceptionFault s none (accessCause name .fetch s.pc)) := by
  simp [fetchWord, h, hcheck]

theorem fetchWord_written {a : Nat} (h : wordAligned s.pc = true) (hcheck : memCheck s s.pc .word .fetch = none)
    (ha : a ∈ wordAddresses s.pc) (hwritten : a ∈ s.written) : fetchWord s = .error .fetchOfWrittenLocation := by
  have hany : (wordAddresses s.pc).any (fun a => s.written.contains a) = true :=
    List.any_eq_true.2 ⟨a, ha, List.contains_iff_mem.2 hwritten⟩
  simp only [fetchWord, h, hcheck, hany, if_true]

theorem fetchWord_unspecified {a : Nat} (h : wordAligned s.pc = true) (hcheck : memCheck s s.pc .word .fetch = none)
    (hwritten : ∀ a ∈ wordAddresses s.pc, a ∉ s.written) (ha : a ∈ wordAddresses s.pc) (hread : s.mem.read a = none) :
    fetchWord s = .error .fetchOfUnspecifiedByte := by
  have hany : (wordAddresses s.pc).any (fun a => s.written.contains a) = false := by simpa using hwritten
  have hword := s.mem.word?_none s.params.endian s.pc a ha hread
  simp only [fetchWord, h, hcheck, hany, hword, if_true, Bool.false_eq_true, if_false]

/-- What stops the fetch stops the step. -/
theorem step_of_fetchWord_error {f : Fault} (h : fetchWord s = .error f) : step s = .fault f :=
  (step_fault s f).2 (.inl (by simp [fetchInstr, h]))

end fetch

/-- Settles O7: each clause is one of the four ways in which the fetch of a word can fail. -/
theorem fetchStopsInOrder : Obligations.FetchStopsInOrder := by
  unfold Obligations.FetchStopsInOrder
  intro s
  simp only [← wordAligned_iff, ← wordAligned_eq_false_iff]
  refine ⟨fun h => step_of_fetchWord_error (fetchWord_misaligned h),
    fun h name hcheck => step_of_fetchWord_error (fetchWord_refused h hcheck), ?_, ?_⟩
  · rintro h hcheck ⟨k, hk, hwritten⟩
    exact step_of_fetchWord_error (fetchWord_written h hcheck ((mem_wordAddresses_iff h _).2 ⟨k, hk, rfl⟩) hwritten)
  · rintro h hcheck hwritten ⟨k, hk, hread⟩
    refine step_of_fetchWord_error
      (fetchWord_unspecified h hcheck (fun a ha => ?_) ((mem_wordAddresses_iff h _).2 ⟨k, hk, rfl⟩) hread)
    obtain ⟨j, hj, rfl⟩ := (mem_wordAddresses_iff h a).1 ha
    exact hwritten j hj

/-! ## Jumps to a misaligned target -/

/-- JR, and JALR with two registers, complete outside a delay slot whatever the target is. -/
theorem exec_jumpRegister {i : Instr} {s : State} {rd rs : Reg} (hi : i = .jr rs ∨ (i = .jalr rd rs ∧ rs ≠ rd))
    (hds : s.ds = false) : ∃ t, exec i s = .next t ∧ t.npc = s.x .first rs ∧ t.ds = true := by
  rcases hi with rfl | ⟨rfl, hne⟩
  · exact ⟨_, (unlessInDelaySlot_next s _ _).2 ⟨hds, rfl⟩, rfl, rfl⟩
  · exact ⟨_, (unlessInDelaySlot_next s _ _).2 ⟨hds, if_neg hne⟩, rfl, rfl⟩

/-- An instruction that completes in a delay slot is no control transfer, so control goes to the target. -/
theorem exec_inDelaySlot {j : Instr} {t u : State} (hds : t.ds = true) (h : exec j t = .next u) :
    u.pc = t.npc ∧ u.ds = false := by
  obtain ⟨hpc, htransfer, -⟩ := controlFlowOfEveryStep j t u h
  refine ⟨hpc, Bool.eq_false_iff.2 fun hu => ?_⟩
  obtain ⟨ht, -⟩ := exec_next_branchTo (htransfer.1 hu) h
  exact Bool.false_ne_true (ht.symm.trans hds)

theorem wordAligned_append (x : BitVec 30) : wordAligned (x ++ 0#2) = true :=
  beq_iff_eq.2 BitVec.extractLsb'_append_eq_right

/-- The two readings of a word differ by a multiple of 2^32. -/
theorem wordAligned_iff_toInt (a : Word) : wordAligned a = true ↔ a.toInt % 4 = 0 := by
  rw [wordAligned_iff, BitVec.toInt_eq_toNat_cond]
  split <;> omega

/-- A branch adds four times its offset (43_branch_jump.md R151). -/
theorem wordAligned_signExtend_append (offset : Imm) : wordAligned ((offset ++ 0#2).signExtend 32) = true := by
  rw [wordAligned_iff_toInt, BitVec.toInt_signExtend_of_le (by decide), BitVec.toInt_append_zero]
  omega

theorem wordAligned_add {a b : Word} (ha : wordAligned a = true) (hb : wordAligned b = true) :
    wordAligned (a + b) = true := by
  rw [wordAligned_iff] at *
  rw [BitVec.toNat_add]
  omega

theorem wordAligned_branchTarget {pc : Word} (h : wordAligned pc = true) (offset : Imm) :
    wordAligned (branchTarget pc offset) = true :=
  wordAligned_add (wordAligned_add_four h) (wordAligned_signExtend_append offset)

theorem wordAligned_jumpTarget (pc : Word) (index : BitVec 26) : wordAligned (jumpTarget pc index) = true :=
  wordAligned_append ((pc + 4#32).extractLsb' 28 4 ++ index)

/-- Settles O24: the slot leaves control at the target, whose fetch is the first to look at its alignment. -/
theorem misalignedTargetRaisesAtFetch : Obligations.MisalignedTargetRaisesAtFetch := by
  unfold Obligations.MisalignedTargetRaisesAtFetch
  simp only [← wordAligned_iff, ← wordAligned_eq_false_iff]
  refine ⟨fun i s rd rs hi hds hmisaligned => ?_,
    fun pc offset index h => ⟨wordAligned_branchTarget h offset, wordAligned_jumpTarget pc index⟩⟩
  obtain ⟨t, ht, hnpc, htds⟩ := exec_jumpRegister hi hds
  refine ⟨t, ht, hnpc, fun j u hu => ?_⟩
  obtain ⟨hpc, huds⟩ := exec_inDelaySlot htds hu
  have hfetch := step_of_fetchWord_error (fetchWord_misaligned (s := u) (by rwa [hpc, hnpc]))
  rw [hfetch, exceptionFault, exceptionRecord, restartAddress, hpc, hnpc, huds]
  rfl

end Sys2Proof.Machine
end

section
/-! PROOFS. Where memory changes (20_memory.md R41, R50): a completed instruction changes it at the bytes it stores to
and nowhere else, and every such byte enters WRITTEN. Over a run, then, a byte outside WRITTEN is the launch image's,
and only such bytes are fetched (R51, R56; 70_reset_and_hazards.md R261). -/

namespace Sys2Proof.Machine

open Statements

/-! ## One instruction -/

section writes
variable {i : Instr} {s u : State}

/-- A byte that `i` does not store to reads as before, and is in WRITTEN as before. -/
theorem Writes.byte_of_not_storesTo (h : Writes i s u) {c : Nat} (hc : ∀ a : Word, StoresTo i s a → c ≠ a.toNat) :
    u.mem.read c = s.mem.read c ∧ (c ∈ u.written ↔ c ∈ s.written) := by
  induction h with
  | nothing => exact ⟨rfl, Iff.rfl⟩
  | gpr _ _ _ ih => simpa using ih
  | fpr _ _ _ ih | hiLo _ _ _ _ ih => exact ih
  | byte _ dest b ih => simpa [hc _ dest] using ih

/-- An instruction that stores to no byte leaves memory and WRITTEN alone. -/
theorem Writes.sameMemory (h : Writes i s u) (hnone : ∀ a, ¬ StoresTo i s a) : SameMemory s u := by
  refine ⟨fun c => (h.byte_of_not_storesTo fun a ha => absurd ha (hnone a)).1, ?_⟩
  induction h with
  | nothing => rfl
  | gpr _ _ _ ih => simpa using ih
  | fpr _ _ _ ih | hiLo _ _ _ _ ih => exact ih
  | byte _ dest _ _ => exact absurd dest (hnone _)

end writes

/-- Settles O19: the writes of the instruction include a byte of memory only where the table gives it one. -/
theorem onlyStoresChangeMemory : Obligations.OnlyStoresChangeMemory := by
  unfold Obligations.OnlyStoresChangeMemory
  intro i s t h
  obtain ⟨u, hw, _, _, _, _, rfl⟩ := exec_writes i s t h
  refine ⟨fun hnone => hw.sameMemory ?_, fun n base offset hstored c hc => hw.byte_of_not_storesTo ?_⟩
  · rintro a ⟨n, base, offset, hstored, -, -⟩
    simp [hnone] at hstored
  · rintro a ⟨n', base', offset', hstored', hlow, hhigh⟩
    obtain ⟨rfl, rfl, rfl⟩ : n = n' ∧ base = base' ∧ offset = offset' := by
      simpa [hstored] using hstored'
    omega

/-! ## A run -/

/-- `t` comes from `s` with the parameters held and with memory changed inside WRITTEN alone, which only grows. -/
structure State.ChangesOnlyWritten (s t : State) : Prop where
  params : t.params = s.params
  grows : ∀ a ∈ s.written, a ∈ t.written
  read : ∀ a, a ∉ t.written → t.mem.read a = s.mem.read a

theorem State.changesOnlyWritten_self (s : State) : s.ChangesOnlyWritten s := ⟨rfl, fun _ ha => ha, fun _ _ => rfl⟩

theorem State.ChangesOnlyWritten.trans {s t u : State} (h : s.ChangesOnlyWritten t) (g : t.ChangesOnlyWritten u) :
    s.ChangesOnlyWritten u where
  params := g.params.trans h.params
  grows a ha := g.grows a (h.grows a ha)
  read a ha := (g.read a ha).trans (h.read a fun hmem => ha (g.grows a hmem))

/-- A byte stored enters WRITTEN (20_memory.md R50). -/
theorem State.changesOnlyWritten_storeByte (s : State) (a : Word) (b : Byte) :
    s.ChangesOnlyWritten (s.storeByte a b) where
  params := rfl
  grows c hc := (mem_insertAddress a.toNat c s.written).2 (.inr hc)
  read c hc := Memory.read_write_ne _ _ _ _ fun e => hc ((mem_insertAddress a.toNat c s.written).2 (.inl e))

theorem Writes.changesOnlyWritten {i : Instr} {s u : State} (h : Writes i s u) : s.ChangesOnlyWritten u := by
  induction h with
  | nothing => exact s.changesOnlyWritten_self
  | gpr _ _ _ ih => exact ⟨by simpa using ih.params, by simpa using ih.grows, by simpa using ih.read⟩
  | fpr _ _ _ ih | hiLo _ _ _ _ ih => exact ⟨ih.params, ih.grows, ih.read⟩
  | byte _ _ b ih => exact ih.trans (State.changesOnlyWritten_storeByte _ _ b)

theorem stepsTo_changesOnlyWritten {s t : State} (h : StepsTo s t) : s.ChangesOnlyWritten t := by
  obtain ⟨i, -, hexec⟩ := (step_next s t).1 h
  obtain ⟨u, hw, _, _, _, _, rfl⟩ := exec_writes i s t hexec
  obtain ⟨params, grows, read⟩ := hw.changesOnlyWritten
  exact ⟨params, grows, read⟩

theorem runsTo_changesOnlyWritten {n : Nat} {s t : State} (h : RunsTo n s t) : s.ChangesOnlyWritten t := by
  induction n generalizing s with
  | zero =>
    obtain rfl : s = t := h
    exact s.changesOnlyWritten_self
  | succ n ih =>
    obtain ⟨u, hstep, hrun⟩ := h
    exact (stepsTo_changesOnlyWritten hstep).trans (ih hrun)

/-- A word is what its four bytes make it. -/
theorem Memory.word?_congr {m m' : Memory} {a : Word} (e : Endian) (h : ∀ c ∈ wordAddresses a, m.read c = m'.read c) :
    m.word? e a = m'.word? e a := by
  simp only [wordAddresses, List.forall_mem_cons] at h
  obtain ⟨h0, h1, h2, h3, -⟩ := h
  simp only [Memory.word?, h0, h1, h2, h3]

/-- Settles O18: a word that is fetched lies outside WRITTEN, and there memory is still the launch image. -/
theorem fetchedCodeIsTheLaunchImage : Obligations.FetchedCodeIsTheLaunchImage := by
  unfold Obligations.FetchedCodeIsTheLaunchImage
  intro p r image n t w hrun hfetch
  obtain ⟨params, -, read⟩ := runsTo_changesOnlyWritten hrun
  obtain ⟨-, -, hfresh, hword⟩ := (fetchWord_ok t w).1 hfetch
  calc image.word? p.endian t.pc
      = t.mem.word? p.endian t.pc := Memory.word?_congr _ fun c hc => (read c (hfresh c hc)).symm
    _ = t.mem.word? t.params.endian t.pc := by rw [params, State.launch]
    _ = some w := hword

end Sys2Proof.Machine
end

section
/-! PROOFS. Loads and stores (46_load_store.md R185 to R194): the effective address, what an access that is refused
raises, and the word that a store leaves for the loads after it (20_memory.md R43, R54, R59). -/

namespace Sys2Proof.Machine

open Statements

/-! ## The effective address -/

/-- A word is its signed reading modulo 2^32 (00_scope.md R8). -/
theorem toInt_emod_word (a : Word) : a.toInt % 2 ^ 32 = a.toNat := by
  rw [BitVec.toInt_eq_toNat_cond]
  have hlt := a.isLt
  split <;> omega

theorem toInt_sextImm (imm : Imm) : (sextImm imm).toInt = imm.toInt :=
  BitVec.toInt_signExtend_of_le (by decide)

/-- Settles O36: the addition of words is modulo 2^32, where the offset is its signed reading. -/
theorem effectiveAddressIsTheSum : Obligations.EffectiveAddressIsTheSum := by
  unfold Obligations.EffectiveAddressIsTheSum
  intro base offset
  calc ((effectiveAddress base offset).toNat : Int)
      = ((base.toNat : Int) + (sextImm offset).toNat) % 2 ^ 32 := by
        rw [effectiveAddress, BitVec.toNat_add]
        rfl
    _ = ((base.toNat : Int) + (sextImm offset).toInt) % 2 ^ 32 := by
        rw [← toInt_emod_word (sextImm offset), Int.add_emod_emod]
    _ = ((base.toNat : Int) + offset.toInt) % 2 ^ 32 := by rw [toInt_sextImm]

/-! ## Accesses that are refused -/

/-- An access is refused with this name: a misaligned word, before MemCheck is asked, or else MemCheck's answer
(46_load_store.md R185; 60_exceptions.md R237). -/
def AccessRefused (s : State) (a : Word) (width : Width) (kind : AccessKind) (name : ExceptionName) : Prop :=
  (width = .word ∧ wordAligned a = false ∧ name = .addressError) ∨
    ((width = .word → wordAligned a = true) ∧ memCheck s a width kind = some name)

section refused
variable {s : State} {a : Word} {name : ExceptionName}

theorem AccessRefused.memRead1 (h : AccessRefused s a .byte .load name) :
    memRead1 s a = .error (accessCause name .load a) := by
  obtain ⟨⟨⟩, -⟩ | ⟨-, hcheck⟩ := h
  exact (memRead1_error s a _).2 ⟨name, hcheck, rfl⟩

theorem AccessRefused.memWrite1 (h : AccessRefused s a .byte .store name) (b : Byte) :
    memWrite1 s a b = .error (accessCause name .store a) := by
  obtain ⟨⟨⟩, -⟩ | ⟨-, hcheck⟩ := h
  exact (memWrite1_error s a b _).2 ⟨name, hcheck, rfl⟩

theorem AccessRefused.memRead4 (h : AccessRefused s a .word .load name) :
    memRead4 s a = .error (accessCause name .load a) := by
  obtain ⟨-, hmisaligned, rfl⟩ | ⟨haligned, hcheck⟩ := h
  · exact (memRead4_error s a _).2 (.inl ⟨hmisaligned, rfl⟩)
  · exact (memRead4_error s a _).2 (.inr ⟨haligned rfl, name, hcheck, rfl⟩)

theorem AccessRefused.memWrite4 (h : AccessRefused s a .word .store name) (v : Word) :
    memWrite4 s a v = .error (accessCause name .store a) := by
  obtain ⟨-, hmisaligned, rfl⟩ | ⟨haligned, hcheck⟩ := h
  · exact (memWrite4_error s a v _).2 (.inl ⟨hmisaligned, rfl⟩)
  · exact (memWrite4_error s a v _).2 (.inr ⟨haligned rfl, name, hcheck, rfl⟩)

end refused

/-- An instruction whose effect raises the cause of an access raises its exception. -/
theorem raisesAt_of_finish {i : Instr} {s : State} {e : Except Cause State} {name : ExceptionName} {kind : AccessKind}
    {a : Word} (hexec : exec i s = finish s i e) (he : e = .error (accessCause name kind a)) :
    RaisesAt i s name kind a := by
  rw [RaisesAt, hexec, he]
  rfl

/-- A load or store whose access is refused raises what refused it. -/
theorem raisesAt_of_accessRefused {i : Instr} {s : State} {kind : AccessKind} {width : Width} {base : Reg}
    {offset : Imm} {name : ExceptionName} (hi : dataAccess i = some (kind, width, base, offset))
    (hcp1 : i.isCp1 = true → s.params.cp1Usable = true)
    (h : AccessRefused s (effectiveAddress (s.x .first base) offset) width kind name) :
    RaisesAt i s name kind (effectiveAddress (s.x .first base) offset) := by
  cases i with
  | lb | lbu =>
    obtain ⟨⟩ := hi
    exact raisesAt_of_finish rfl ((mapRead_error _ _ _).2 h.memRead1)
  | lw =>
    obtain ⟨⟩ := hi
    exact raisesAt_of_finish rfl ((mapRead_error _ _ _).2 h.memRead4)
  | lwc1 =>
    obtain ⟨⟩ := hi
    exact raisesAt_of_finish rfl ((ifCp1Usable_error _ _ _).2 (.inr ⟨hcp1 rfl, (mapRead_error _ _ _).2 h.memRead4⟩))
  | sb =>
    obtain ⟨⟩ := hi
    exact raisesAt_of_finish rfl (h.memWrite1 _)
  | sw =>
    obtain ⟨⟩ := hi
    exact raisesAt_of_finish rfl (h.memWrite4 _)
  | swc1 =>
    obtain ⟨⟩ := hi
    exact raisesAt_of_finish rfl ((ifCp1Usable_error _ _ _).2 (.inr ⟨hcp1 rfl, h.memWrite4 _⟩))
  | _ => cases hi

/-- Settles O41: the two clauses are the two ways in which an access is refused. -/
theorem accessesRaiseInOrder : Obligations.AccessesRaiseInOrder := by
  unfold Obligations.AccessesRaiseInOrder
  intro i s kind width base offset hi hcp1
  simp only [← wordAligned_iff, ← wordAligned_eq_false_iff]
  exact ⟨fun hword hmisaligned => raisesAt_of_accessRefused hi hcp1 (.inl ⟨hword, hmisaligned, rfl⟩),
    fun haligned name hcheck => raisesAt_of_accessRefused hi hcp1 (.inr ⟨haligned, hcheck⟩)⟩

/-! ## The bytes of a word that was stored -/

/-- The byte at address plus `k` is the digit of its weight (20_memory.md R43). -/
theorem toNat_wordByte (e : Endian) (v : Word) (k : Fin 4) :
    (wordByte e v k).toNat = v.toNat / byteWeight e k % 256 := by
  cases e <;> simp [wordByte, byteWeight, Nat.shiftRight_eq_div_pow]

/-- After a word store each of its four bytes is where ENDIAN puts it (20_memory.md R43, R50). -/
theorem State.storeBytes_read_byte (s : State) {a : Word} (v : Word) (h : wordAligned a = true) (k : Fin 4) :
    (s.storeBytes a v).mem.read (a.toNat + k) = some (wordByte s.params.endian v k) := by
  obtain ⟨e1, e2, e3⟩ := toNat_add_of_wordAligned h
  rw [State.storeBytes_read, e1, e2, e3]
  fin_cases k <;> simp

/-- After a word store the whole word is read back. -/
theorem State.storeBytes_word? (s : State) {a : Word} (v : Word) (h : wordAligned a = true) :
    (s.storeBytes a v).mem.word? s.params.endian a = some v := by
  obtain ⟨e1, e2, e3⟩ := toNat_add_of_wordAligned h
  have hread := s.storeBytes_read_byte v h
  rw [Memory.word?_of_read _ s.params.endian a _ _ _ _ (hread 0) (e1 ▸ hread 1) (e2 ▸ hread 2) (e3 ▸ hread 3),
    assembleWord_wordBytes]

/-- SW completes at an aligned address and leaves the memory of its word store. -/
theorem exec_sw_next {s t : State} {rt base : Reg} {offset : Imm} (h : exec (.sw rt offset base) s = .next t) :
    wordAligned (effectiveAddress (s.x .first base) offset) = true ∧
      t.mem = (s.storeBytes (effectiveAddress (s.x .first base) offset) (s.x .second rt)).mem ∧
        t.params = s.params := by
  obtain ⟨u, hu, rfl⟩ := (finish_next s t _ _).1 h
  obtain ⟨haligned, -, rfl⟩ := (memWrite4_ok s u _ _).1 hu
  exact ⟨haligned, rfl, rfl⟩

/-! ## Loads -/

/-- An instruction whose effect is one write to a GPR leaves there what it writes, and changes nothing else. -/
theorem leavesInGpr_of_finish {i : Instr} {s : State} {e : Except Cause State} {rd : Reg} {c : Contents}
    (hexec : exec i s = finish s i e) (he : e = .ok (s.setGpr rd c)) : LeavesInGpr i s rd c := by
  refine ⟨(s.setGpr rd c).advance, by rw [hexec, he, finish_ok], ?_, by simp, by simp [AdvancesInOrder]⟩
  exact ⟨s.gprAt_setGpr_same rd c, fun r hr => s.gprAt_setGpr_ne rd r c hr, s.setGpr_fprAt rd c,
    ⟨s.setGpr_hi rd c, s.setGpr_lo rd c⟩, by simp [SameMemory], s.setGpr_params rd c⟩

/-- LW at an aligned address that MemCheck admits. -/
theorem leavesInGpr_lw {s : State} {rt base : Reg} {offset : Imm}
    (haligned : wordAligned (effectiveAddress (s.x .first base) offset) = true)
    (hcheck : memCheck s (effectiveAddress (s.x .first base) offset) .word .load = none) :
    LeavesInGpr (.lw rt offset base) s rt
      (loaded id (s.mem.word? s.params.endian (effectiveAddress (s.x .first base) offset))) :=
  leavesInGpr_of_finish rfl ((mapRead_ok _ _ _).2 ⟨_, (memRead4_ok s _ _).2 ⟨haligned, hcheck, rfl⟩, rfl⟩)

/-- LBU at an address that MemCheck admits. -/
theorem leavesInGpr_lbu {s : State} {rt base : Reg} {offset : Imm}
    (hcheck : memCheck s (effectiveAddress (s.x .first base) offset) .byte .load = none) :
    LeavesInGpr (.lbu rt offset base) s rt
      (loaded zextByte (s.mem.read (effectiveAddress (s.x .first base) offset).toNat)) :=
  leavesInGpr_of_finish rfl ((mapRead_ok _ _ _).2 ⟨_, (memRead1_ok s _ _).2 ⟨hcheck, rfl⟩, rfl⟩)

theorem toNat_zextByte (b : Byte) : (zextByte b).toNat = b.toNat :=
  BitVec.toNat_setWidth_of_le (by decide)

/-- Settles O42: the loads read the bytes that the store has left. -/
theorem storeThenLoad : Obligations.StoreThenLoad := by
  unfold Obligations.StoreThenLoad
  intro s t rt base rd base' offset offset' h
  obtain ⟨haligned, hmem, hparams⟩ := exec_sw_next h
  refine ⟨fun hea hcheck => ?_, fun k hk hea hcheck => ?_⟩
  · have hload := leavesInGpr_lw (rt := rd) (by rwa [hea]) hcheck
    rwa [hea, hmem, hparams, s.storeBytes_word? _ haligned] at hload
  · have hload := leavesInGpr_lbu (rt := rd) hcheck
    have hread := s.storeBytes_read_byte (s.x .second rt) haligned ⟨k, hk⟩
    rw [hea, hmem, hread] at hload
    exact ⟨_, hload, by rw [toNat_zextByte, toNat_wordByte]⟩

end Sys2Proof.Machine
end

section
/-! PROOFS. The encoder and the decoder are inverse to each other (30_encoding.md R70, R75, R80). One direction reads
the fields back from the word that was built. The other follows the tables R69 and R71 to R74: where a decoder answers
with an instruction, the tests it passed fix the fields that are not operands, and the word is its fields. -/

namespace Sys2Proof

/-! ## Decoding what was encoded -/

section syscall
variable (code : BitVec 20)

@[simp] theorem opcodeOf_encode_syscall : opcodeOf (encode (.syscall code)) = 0b000000#6 := by
  grind [opcodeOf, encode]
@[simp] theorem functOf_encode_syscall : functOf (encode (.syscall code)) = 0b001100#6 := by grind [functOf, encode]
@[simp] theorem codeOf_encode_syscall : codeOf (encode (.syscall code)) = code := by grind [codeOf, encode]

theorem decode_encode_syscall : decode (encode (.syscall code)) = .ok (.syscall code) := by
  simp [decode, decodeSpecial]

end syscall

/-- Settles O1: every field that the decoder tests or reads is the field that the encoder wrote. -/
theorem decodeOfEncode : Obligations.DecodeOfEncode := by
  unfold Obligations.DecodeOfEncode
  intro i
  cases i with
  | syscall code => exact decode_encode_syscall code
  | add | addu | sub | subu | slt | sltu | and | or | xor | nor | movn | movz | sllv | srlv | srav =>
    simp [encode, decode, decodeSpecial, whenZero]
  | sll | srl | sra | jr | jalr | mult | multu | div | divu | mfhi | mflo =>
    simp [encode, decode, decodeSpecial, whenZero]
  | bgez | bltz => simp [encode, decode, decodeRegimm]
  | mul => simp [encode, decode, decodeSpecial2, whenZero]
  | addS | subS | mulS | divS | movS | negS => simp [encode, decode, decodeCop1, decodeFormatS, whenZero]
  | mfc1 | mtc1 => simp [encode, decode, decodeCop1, whenZero]
  | blez | bgtz | lui => simp [encode, decode, whenZero]
  | addi | addiu | slti | sltiu | andi | ori | xori | beq | bne | j | jal => simp [encode, decode]
  | lb | lbu | lw | sb | sw | lwc1 | swc1 => simp [encode, decode]

/-! ## A word from what is known of its fields -/

section fields
variable {w : Word} {op : BitVec 6}

theorem encR_eq_of_fields {rs rt rd sa : BitVec 5} {fn : BitVec 6} (hop : opcodeOf w = op) (hrs : rsOf w = rs)
    (hrt : rtOf w = rt) (hrd : rdOf w = rd) (hsa : saOf w = sa) (hfn : functOf w = fn) :
    encR op rs rt rd sa fn = w := by
  rw [word_eq_encR w, hop, hrs, hrt, hrd, hsa, hfn]

theorem encI_eq_of_fields {rs rt : BitVec 5} {imm : Imm} (hop : opcodeOf w = op) (hrs : rsOf w = rs)
    (hrt : rtOf w = rt) (himm : immOf w = imm) : encI op rs rt imm = w := by
  rw [word_eq_encI w, hop, hrs, hrt, himm]

theorem encJ_eq_of_opcode (hop : opcodeOf w = op) : encJ op (indexOf w) = w := by
  rw [← hop, ← word_eq_encJ]

theorem encode_syscall_eq_of_fields (hop : opcodeOf w = 0b000000#6) (hfn : functOf w = 0b001100#6) :
    encode (.syscall (codeOf w)) = w := by
  have h := word_eq_syscall w
  rw [hop, hfn] at h
  exact h.symm

end fields

/-! ## Encoding what was decoded -/

/-- Where `e` is an instruction, `w` is its word. -/
def EncodesBack (w : Word) (e : Except DecodeError Instr) : Prop := ∀ i, e = .ok i → encode i = w

section encodesBack
variable {w : Word}

theorem encodesBack_error (r : DecodeError) : EncodesBack w (.error r) := by
  rintro _ ⟨⟩

theorem encodesBack_ok {i : Instr} (h : encode i = w) : EncodesBack w (.ok i) := by
  rintro _ ⟨⟩
  exact h

/-- A must-be-zero field of an instruction is 0 (R75). -/
theorem encodesBack_whenZero {zero : Bool} {i : Instr} (h : zero = true → encode i = w) :
    EncodesBack w (whenZero zero i) := by
  unfold whenZero
  split
  · exact encodesBack_ok (h ‹_›)
  · exact encodesBack_error _

/-- One row of a table, and the rows after it. -/
theorem EncodesBack.ite {d e : Except DecodeError Instr} {p : Prop} [Decidable p] (hd : p → EncodesBack w d)
    (he : EncodesBack w e) : EncodesBack w (if p then d else e) := by
  split
  · exact hd ‹_›
  · exact he

/-! ### One row of a table: the fields that are not operands are tested -/

section rows
variable {op : BitVec 6} {i : Instr} {zero : Bool}

theorem encodesBack_encJ (hi : encode i = encJ op (indexOf w)) (hop : opcodeOf w = op) : EncodesBack w (.ok i) :=
  encodesBack_ok (hi.trans (encJ_eq_of_opcode hop))

theorem encodesBack_encI (hi : encode i = encI op (rsOf w) (rtOf w) (immOf w)) (hop : opcodeOf w = op) :
    EncodesBack w (.ok i) := encodesBack_ok (hi.trans (encI_eq_of_fields hop rfl rfl rfl))

/-- A row of the I format with a field that must be zero. -/
theorem encodesBack_encI_whenZero {rs rt : BitVec 5} (hi : encode i = encI op rs rt (immOf w))
    (hzero : zero = true → rsOf w = rs ∧ rtOf w = rt) (hop : opcodeOf w = op) : EncodesBack w (whenZero zero i) := by
  refine encodesBack_whenZero fun hz => ?_
  obtain ⟨hrs, hrt⟩ := hzero hz
  exact hi.trans (encI_eq_of_fields hop hrs hrt rfl)

/-- A row of the R or FR format with fields that must be zero. -/
theorem encodesBack_encR_whenZero {rs rt rd sa : BitVec 5} {fn : BitVec 6} (hop : opcodeOf w = op)
    (hi : encode i = encR op rs rt rd sa fn)
    (hzero : zero = true → rsOf w = rs ∧ rtOf w = rt ∧ rdOf w = rd ∧ saOf w = sa) (hfn : functOf w = fn) :
    EncodesBack w (whenZero zero i) := by
  refine encodesBack_whenZero fun hz => ?_
  obtain ⟨hrs, hrt, hrd, hsa⟩ := hzero hz
  exact hi.trans (encR_eq_of_fields hop hrs hrt hrd hsa hfn)

end rows

/-! ### The tables -/

/-- R71, row by row: the three shifts by `sa`, the three by a register, JR, JALR, MOVZ, MOVN, SYSCALL, MFHI, MFLO, the
four that write HI and LO, and the ten of three registers. -/
theorem encodesBack_decodeSpecial (hop : opcodeOf w = 0b000000#6) : EncodesBack w (decodeSpecial w) := by
  unfold decodeSpecial
  have register {i fn} (hi : encode i = encR 0b000000#6 (rsOf w) (rtOf w) (rdOf w) 0#5 fn) :=
    encodesBack_encR_whenZero hop (zero := saOf w == 0) hi (by simp)
  exact .ite (encodesBack_encR_whenZero hop rfl (by simp)) <| .ite (encodesBack_encR_whenZero hop rfl (by simp)) <|
    .ite (encodesBack_encR_whenZero hop rfl (by simp)) <|
    .ite (register rfl) <| .ite (register rfl) <| .ite (register rfl) <|
    .ite (encodesBack_encR_whenZero hop rfl (by simp [and_assoc])) <|
    .ite (encodesBack_encR_whenZero hop rfl (by simp)) <|
    .ite (register rfl) <| .ite (register rfl) <|
    .ite (fun hfn => encodesBack_ok (encode_syscall_eq_of_fields hop hfn)) <|
    .ite (encodesBack_encR_whenZero hop rfl (by simp [and_assoc])) <|
    .ite (encodesBack_encR_whenZero hop rfl (by simp [and_assoc])) <|
    .ite (encodesBack_encR_whenZero hop rfl (by simp)) <| .ite (encodesBack_encR_whenZero hop rfl (by simp)) <|
    .ite (encodesBack_encR_whenZero hop rfl (by simp)) <| .ite (encodesBack_encR_whenZero hop rfl (by simp)) <|
    .ite (register rfl) <| .ite (register rfl) <| .ite (register rfl) <| .ite (register rfl) <|
    .ite (register rfl) <| .ite (register rfl) <| .ite (register rfl) <| .ite (register rfl) <|
    .ite (register rfl) <| .ite (register rfl) <| encodesBack_error _

/-- R72: BLTZ and BGEZ. -/
theorem encodesBack_decodeRegimm (hop : opcodeOf w = 0b000001#6) : EncodesBack w (decodeRegimm w) :=
  .ite (fun hrt => encodesBack_ok (encI_eq_of_fields hop rfl hrt rfl)) <|
    .ite (fun hrt => encodesBack_ok (encI_eq_of_fields hop rfl hrt rfl)) <| encodesBack_error _

/-- R73: MUL. -/
theorem encodesBack_decodeSpecial2 (hop : opcodeOf w = 0b011100#6) : EncodesBack w (decodeSpecial2 w) :=
  .ite (encodesBack_encR_whenZero hop rfl (by simp)) <| encodesBack_error _

/-- The rows of R74 under `fmt = 10000`: the four operations, MOV.S and NEG.S. -/
theorem encodesBack_decodeFormatS (hop : opcodeOf w = 0b010001#6) (hfmt : rsOf w = 0b10000#5) :
    EncodesBack w (decodeFormatS w) := by
  unfold decodeFormatS
  have binary {i fn} (hi : encode i = encR 0b010001#6 0b10000#5 (rtOf w) (rdOf w) (saOf w) fn)
      (hfn : functOf w = fn) : EncodesBack w (.ok i) :=
    encodesBack_ok (hi.trans (encR_eq_of_fields hop hfmt rfl rfl rfl hfn))
  exact .ite (binary rfl) <| .ite (binary rfl) <| .ite (binary rfl) <| .ite (binary rfl) <|
    .ite (encodesBack_encR_whenZero hop rfl (by simp [hfmt])) <|
    .ite (encodesBack_encR_whenZero hop rfl (by simp [hfmt])) <| encodesBack_error _

/-- R74: MFC1, MTC1 and the instructions of format S. -/
theorem encodesBack_decodeCop1 (hop : opcodeOf w = 0b010001#6) : EncodesBack w (decodeCop1 w) := by
  have move {i sub} (hi : encode i = encR 0b010001#6 sub (rtOf w) (rdOf w) 0#5 0#6) (hsub : rsOf w = sub) :
      EncodesBack w (whenZero (saOf w == 0 && functOf w == 0) i) := by
    refine encodesBack_whenZero fun hz => ?_
    obtain ⟨hsa, hfn⟩ : saOf w = 0#5 ∧ functOf w = 0#6 := by simpa using hz
    exact hi.trans (encR_eq_of_fields hop hsub rfl rfl hsa hfn)
  exact .ite (move rfl) <| .ite (move rfl) <| .ite (encodesBack_decodeFormatS hop) <| encodesBack_error _

end encodesBack

/-- R69, row by row. -/
theorem encodesBack_decode (w : Word) : EncodesBack w (decode w) := by
  unfold decode
  have index {i op} := @encodesBack_encJ w op i
  have imm {i op} := @encodesBack_encI w op i
  exact .ite encodesBack_decodeSpecial <| .ite encodesBack_decodeRegimm <|
    .ite (index rfl) <| .ite (index rfl) <| .ite (imm rfl) <| .ite (imm rfl) <|
    .ite (encodesBack_encI_whenZero rfl (by simp)) <| .ite (encodesBack_encI_whenZero rfl (by simp)) <|
    .ite (imm rfl) <| .ite (imm rfl) <| .ite (imm rfl) <| .ite (imm rfl) <|
    .ite (imm rfl) <| .ite (imm rfl) <| .ite (imm rfl) <| .ite (encodesBack_encI_whenZero rfl (by simp)) <|
    .ite encodesBack_decodeCop1 <| .ite encodesBack_decodeSpecial2 <|
    .ite (imm rfl) <| .ite (imm rfl) <| .ite (imm rfl) <| .ite (imm rfl) <|
    .ite (imm rfl) <| .ite (imm rfl) <| .ite (imm rfl) <| encodesBack_error _

/-- Settles O2: the tests a decoder made are the fields that the encoder writes. -/
theorem encodeOfDecode : Obligations.EncodeOfDecode := by
  unfold Obligations.EncodeOfDecode
  exact encodesBack_decode

/-- Settles O5: each word is closed. -/
theorem sampleWordsDecode : Obligations.SampleWordsDecode := by
  unfold Obligations.SampleWordsDecode
  decide

end Sys2Proof
end

section
/-! PROOFS. The decoder against the opcode table (30_encoding.md R70, R80). A row's mask covers whole fields, so that a
word which matches the row has the fields of the row's pattern, and is the word of an instruction of its mnemonic. -/

namespace Sys2Proof

/-! ## A decoded word matches its row -/

/-- The word of every instruction matches the row of its mnemonic. -/
theorem rowMatch : ∀ i : Instr, Laws.RowMatch.Statement i
  | .add .. => Laws.RowMatch.add ..
  | .addi .. => Laws.RowMatch.addi ..
  | .addiu .. => Laws.RowMatch.addiu ..
  | .addu .. => Laws.RowMatch.addu ..
  | .sub .. => Laws.RowMatch.sub ..
  | .subu .. => Laws.RowMatch.subu ..
  | .slt .. => Laws.RowMatch.slt ..
  | .slti .. => Laws.RowMatch.slti ..
  | .sltiu .. => Laws.RowMatch.sltiu ..
  | .sltu .. => Laws.RowMatch.sltu ..
  | .addS .. => Laws.RowMatch.addS ..
  | .subS .. => Laws.RowMatch.subS ..
  | .mulS .. => Laws.RowMatch.mulS ..
  | .divS .. => Laws.RowMatch.divS ..
  | .movS .. => Laws.RowMatch.movS ..
  | .negS .. => Laws.RowMatch.negS ..
  | .mfc1 .. => Laws.RowMatch.mfc1 ..
  | .mtc1 .. => Laws.RowMatch.mtc1 ..
  | .and .. => Laws.RowMatch.and ..
  | .andi .. => Laws.RowMatch.andi ..
  | .or .. => Laws.RowMatch.or ..
  | .ori .. => Laws.RowMatch.ori ..
  | .xor .. => Laws.RowMatch.xor ..
  | .xori .. => Laws.RowMatch.xori ..
  | .nor .. => Laws.RowMatch.nor ..
  | .lui .. => Laws.RowMatch.lui ..
  | .beq .. => Laws.RowMatch.beq ..
  | .bne .. => Laws.RowMatch.bne ..
  | .bgez .. => Laws.RowMatch.bgez ..
  | .bgtz .. => Laws.RowMatch.bgtz ..
  | .blez .. => Laws.RowMatch.blez ..
  | .bltz .. => Laws.RowMatch.bltz ..
  | .j .. => Laws.RowMatch.j ..
  | .jal .. => Laws.RowMatch.jal ..
  | .jalr .. => Laws.RowMatch.jalr ..
  | .jr .. => Laws.RowMatch.jr ..
  | .mult .. => Laws.RowMatch.mult ..
  | .multu .. => Laws.RowMatch.multu ..
  | .mul .. => Laws.RowMatch.mul ..
  | .div .. => Laws.RowMatch.div ..
  | .divu .. => Laws.RowMatch.divu ..
  | .mfhi .. => Laws.RowMatch.mfhi ..
  | .mflo .. => Laws.RowMatch.mflo ..
  | .lb .. => Laws.RowMatch.lb ..
  | .lbu .. => Laws.RowMatch.lbu ..
  | .lw .. => Laws.RowMatch.lw ..
  | .sb .. => Laws.RowMatch.sb ..
  | .sw .. => Laws.RowMatch.sw ..
  | .lwc1 .. => Laws.RowMatch.lwc1 ..
  | .swc1 .. => Laws.RowMatch.swc1 ..
  | .movn .. => Laws.RowMatch.movn ..
  | .movz .. => Laws.RowMatch.movz ..
  | .sll .. => Laws.RowMatch.sll ..
  | .sllv .. => Laws.RowMatch.sllv ..
  | .sra .. => Laws.RowMatch.sra ..
  | .srav .. => Laws.RowMatch.srav ..
  | .srl .. => Laws.RowMatch.srl ..
  | .srlv .. => Laws.RowMatch.srlv ..
  | .syscall .. => Laws.RowMatch.syscall ..

theorem exists_row_of_decode {w : Word} {i : Instr} (h : decode w = .ok i) :
    ∃ r ∈ opcodeTable, r.mnemonic = i.mnemonic ∧ w &&& r.mask = r.pattern := by
  rw [← encodeOfDecode w i h]
  exact rowMatch i

/-! ## A word that matches a row -/

/-- A word that matches the row is the word of an instruction of the row's mnemonic. -/
def RowGivesInstr (w : Word) (r : OpcodeRow) : Prop :=
  w &&& r.mask = r.pattern → ∃ i, encode i = w ∧ i.mnemonic = r.mnemonic

/-- A field of a word that matches a row: the pattern's where the mask covers the field, else the word's own. -/
def matchedField {n : Nat} (mask pattern field : BitVec n) : BitVec n :=
  if mask = BitVec.allOnes n then pattern else field

theorem matchedField_of_match {w m p : Word} (h : w &&& m = p) (start len : Nat) :
    w.extractLsb' start len =
      matchedField (m.extractLsb' start len) (p.extractLsb' start len) (w.extractLsb' start len) := by
  unfold matchedField
  split
  · rename_i hm
    rw [← h, BitVec.extractLsb'_and, hm, BitVec.and_allOnes]
  · rfl

section formats
variable {w : Word} {r : OpcodeRow} (i : Instr)

theorem rowGivesInstr_encR
    (hi : encode i = encR (matchedField (opcodeOf r.mask) (opcodeOf r.pattern) (opcodeOf w))
      (matchedField (rsOf r.mask) (rsOf r.pattern) (rsOf w)) (matchedField (rtOf r.mask) (rtOf r.pattern) (rtOf w))
      (matchedField (rdOf r.mask) (rdOf r.pattern) (rdOf w)) (matchedField (saOf r.mask) (saOf r.pattern) (saOf w))
      (matchedField (functOf r.mask) (functOf r.pattern) (functOf w)))
    (hn : i.mnemonic = r.mnemonic) : RowGivesInstr w r := fun h =>
  have field := matchedField_of_match h
  ⟨i, hi.trans (encR_eq_of_fields (field 26 6) (field 21 5) (field 16 5) (field 11 5) (field 6 5) (field 0 6)), hn⟩

theorem rowGivesInstr_encI
    (hi : encode i = encI (matchedField (opcodeOf r.mask) (opcodeOf r.pattern) (opcodeOf w))
      (matchedField (rsOf r.mask) (rsOf r.pattern) (rsOf w)) (matchedField (rtOf r.mask) (rtOf r.pattern) (rtOf w))
      (immOf w))
    (hn : i.mnemonic = r.mnemonic) : RowGivesInstr w r := fun h =>
  have field := matchedField_of_match h
  ⟨i, hi.trans (encI_eq_of_fields (field 26 6) (field 21 5) (field 16 5) rfl), hn⟩

theorem rowGivesInstr_encJ
    (hi : encode i = encJ (matchedField (opcodeOf r.mask) (opcodeOf r.pattern) (opcodeOf w)) (indexOf w))
    (hn : i.mnemonic = r.mnemonic) : RowGivesInstr w r := fun h =>
  ⟨i, hi.trans (encJ_eq_of_opcode (matchedField_of_match h 26 6)), hn⟩

end formats

section rows
variable (w : Word)

theorem rowGivesInstr_integer : ∀ r ∈ opcodeRowsInteger, RowGivesInstr w r := by
  simp only [opcodeRowsInteger, List.forall_mem_cons]
  exact ⟨rowGivesInstr_encR (.add _ _ _) rfl rfl, rowGivesInstr_encI (.addi _ _ _) rfl rfl,
    rowGivesInstr_encI (.addiu _ _ _) rfl rfl, rowGivesInstr_encR (.addu _ _ _) rfl rfl,
    rowGivesInstr_encR (.sub _ _ _) rfl rfl, rowGivesInstr_encR (.subu _ _ _) rfl rfl,
    rowGivesInstr_encR (.slt _ _ _) rfl rfl, rowGivesInstr_encI (.slti _ _ _) rfl rfl,
    rowGivesInstr_encI (.sltiu _ _ _) rfl rfl, rowGivesInstr_encR (.sltu _ _ _) rfl rfl, List.forall_mem_nil _⟩

theorem rowGivesInstr_float : ∀ r ∈ opcodeRowsFloat, RowGivesInstr w r := by
  simp only [opcodeRowsFloat, List.forall_mem_cons]
  exact ⟨rowGivesInstr_encR (.addS _ _ _) rfl rfl, rowGivesInstr_encR (.subS _ _ _) rfl rfl,
    rowGivesInstr_encR (.mulS _ _ _) rfl rfl, rowGivesInstr_encR (.divS _ _ _) rfl rfl,
    rowGivesInstr_encR (.movS _ _) rfl rfl, rowGivesInstr_encR (.negS _ _) rfl rfl,
    rowGivesInstr_encR (.mfc1 _ _) rfl rfl, rowGivesInstr_encR (.mtc1 _ _) rfl rfl, List.forall_mem_nil _⟩

theorem rowGivesInstr_logical : ∀ r ∈ opcodeRowsLogical, RowGivesInstr w r := by
  simp only [opcodeRowsLogical, List.forall_mem_cons]
  exact ⟨rowGivesInstr_encR (.and _ _ _) rfl rfl, rowGivesInstr_encI (.andi _ _ _) rfl rfl,
    rowGivesInstr_encR (.or _ _ _) rfl rfl, rowGivesInstr_encI (.ori _ _ _) rfl rfl,
    rowGivesInstr_encR (.xor _ _ _) rfl rfl, rowGivesInstr_encI (.xori _ _ _) rfl rfl,
    rowGivesInstr_encR (.nor _ _ _) rfl rfl, rowGivesInstr_encI (.lui _ _) rfl rfl, List.forall_mem_nil _⟩

theorem rowGivesInstr_branch : ∀ r ∈ opcodeRowsBranch, RowGivesInstr w r := by
  simp only [opcodeRowsBranch, List.forall_mem_cons]
  exact ⟨rowGivesInstr_encI (.beq _ _ _) rfl rfl, rowGivesInstr_encI (.bne _ _ _) rfl rfl,
    rowGivesInstr_encI (.bgez _ _) rfl rfl, rowGivesInstr_encI (.bgtz _ _) rfl rfl,
    rowGivesInstr_encI (.blez _ _) rfl rfl, rowGivesInstr_encI (.bltz _ _) rfl rfl, rowGivesInstr_encJ (.j _) rfl rfl,
    rowGivesInstr_encJ (.jal _) rfl rfl, rowGivesInstr_encR (.jalr _ _) rfl rfl, rowGivesInstr_encR (.jr _) rfl rfl,
    List.forall_mem_nil _⟩

theorem rowGivesInstr_mulDiv : ∀ r ∈ opcodeRowsMulDiv, RowGivesInstr w r := by
  simp only [opcodeRowsMulDiv, List.forall_mem_cons]
  exact ⟨rowGivesInstr_encR (.mult _ _) rfl rfl, rowGivesInstr_encR (.multu _ _) rfl rfl,
    rowGivesInstr_encR (.mul _ _ _) rfl rfl, rowGivesInstr_encR (.div _ _) rfl rfl,
    rowGivesInstr_encR (.divu _ _) rfl rfl, rowGivesInstr_encR (.mfhi _) rfl rfl,
    rowGivesInstr_encR (.mflo _) rfl rfl, List.forall_mem_nil _⟩

theorem rowGivesInstr_loadStore : ∀ r ∈ opcodeRowsLoadStore, RowGivesInstr w r := by
  simp only [opcodeRowsLoadStore, List.forall_mem_cons]
  exact ⟨rowGivesInstr_encI (.lb _ _ _) rfl rfl, rowGivesInstr_encI (.lbu _ _ _) rfl rfl,
    rowGivesInstr_encI (.lw _ _ _) rfl rfl, rowGivesInstr_encI (.sb _ _ _) rfl rfl,
    rowGivesInstr_encI (.sw _ _ _) rfl rfl, rowGivesInstr_encI (.lwc1 _ _ _) rfl rfl,
    rowGivesInstr_encI (.swc1 _ _ _) rfl rfl, List.forall_mem_nil _⟩

theorem rowGivesInstr_move : ∀ r ∈ opcodeRowsMove, RowGivesInstr w r := by
  simp only [opcodeRowsMove, List.forall_mem_cons]
  exact ⟨rowGivesInstr_encR (.movn _ _ _) rfl rfl, rowGivesInstr_encR (.movz _ _ _) rfl rfl, List.forall_mem_nil _⟩

theorem rowGivesInstr_shift : ∀ r ∈ opcodeRowsShift, RowGivesInstr w r := by
  simp only [opcodeRowsShift, List.forall_mem_cons]
  exact ⟨rowGivesInstr_encR (.sll _ _ _) rfl rfl, rowGivesInstr_encR (.sllv _ _ _) rfl rfl,
    rowGivesInstr_encR (.sra _ _ _) rfl rfl, rowGivesInstr_encR (.srav _ _ _) rfl rfl,
    rowGivesInstr_encR (.srl _ _ _) rfl rfl, rowGivesInstr_encR (.srlv _ _ _) rfl rfl, List.forall_mem_nil _⟩

/-- SYSCALL has a field of its own, its code. -/
theorem rowGivesInstr_system : ∀ r ∈ opcodeRowsSystem, RowGivesInstr w r := by
  simp only [opcodeRowsSystem, List.forall_mem_singleton]
  intro h
  have field := matchedField_of_match h
  exact ⟨_, encode_syscall_eq_of_fields (field 26 6) (field 0 6), rfl⟩

theorem rowGivesInstr_of_mem : ∀ r ∈ opcodeTable, RowGivesInstr w r := by
  simp only [opcodeTable, List.forall_mem_append]
  exact ⟨⟨⟨⟨⟨⟨⟨⟨rowGivesInstr_integer w, rowGivesInstr_float w⟩, rowGivesInstr_logical w⟩, rowGivesInstr_branch w⟩,
    rowGivesInstr_mulDiv w⟩, rowGivesInstr_loadStore w⟩, rowGivesInstr_move w⟩, rowGivesInstr_shift w⟩,
    rowGivesInstr_system w⟩

end rows

theorem exists_decode_of_match {w : Word} {r : OpcodeRow} (hr : r ∈ opcodeTable) (h : w &&& r.mask = r.pattern) :
    ∃ i, decode w = .ok i ∧ i.mnemonic = r.mnemonic := by
  obtain ⟨i, rfl, hn⟩ := rowGivesInstr_of_mem w r hr h
  exact ⟨i, decodeOfEncode i, hn⟩

/-! ## The rows exclude each other -/

theorem opcodeTable_mnemonics_nodup : (opcodeTable.map OpcodeRow.mnemonic).Nodup := by decide

/-- A word that matches two rows decodes to an instruction that bears both mnemonics. -/
theorem row_unique_of_match {w : Word} {r₁ r₂ : OpcodeRow} (hr₁ : r₁ ∈ opcodeTable) (hr₂ : r₂ ∈ opcodeTable)
    (h₁ : w &&& r₁.mask = r₁.pattern) (h₂ : w &&& r₂.mask = r₂.pattern) : r₁ = r₂ := by
  obtain ⟨i, hi, hn₁⟩ := exists_decode_of_match hr₁ h₁
  obtain ⟨j, hj, hn₂⟩ := exists_decode_of_match hr₂ h₂
  obtain rfl : i = j := Except.ok.inj (hi.symm.trans hj)
  exact List.inj_on_of_nodup_map opcodeTable_mnemonics_nodup hr₁ hr₂ (hn₁.symm.trans hn₂)

/-- Settles O3: a decoded word is the word of its instruction, which matches its row; a word that matches a row has
the row's fields; and no two rows share a mnemonic. -/
theorem decodeIsTheOpcodeTable : Obligations.DecodeIsTheOpcodeTable := by
  unfold Obligations.DecodeIsTheOpcodeTable
  exact ⟨fun _ _ => exists_row_of_decode, fun _ _ => exists_decode_of_match, fun _ _ hr₁ _ => row_unique_of_match hr₁⟩

end Sys2Proof
end

section
/-! PROOFS. Reserved encodings (30_encoding.md R76; 60_exceptions.md R228). The fetch raises ReservedInstruction on a
word that matches no row. Nothing else does: a fetch that fails before it has a word raises the exception of an
access, and `EffectCause` lists what an instruction can raise. -/

namespace Sys2Proof.Machine

open Statements

/-! ## What an instruction can raise -/

/-- What `i` can raise at `s`, with the info that is the exception's own (60_exceptions.md R223 to R231). -/
inductive EffectCause (i : Instr) (s : State) : Cause → Prop where
  | overflow (h : sumOverflows i s) : EffectCause i s (plainCause .integerOverflow)
  | systemCall {code : BitVec 20} (h : i = .syscall code) : EffectCause i s (plainCause .systemCall)
  | unusable (hi : i.isCp1 = true) (hs : s.params.cp1Usable = false) : EffectCause i s coprocessorUnusable
  | floatingPoint (hi : i.isCp1 = true) (k : FpCause) : EffectCause i s (fpCause k)
  | access {kind : AccessKind} {width : Width} {base : Reg} {offset : Imm} {name : ExceptionName}
      (hi : dataAccess i = some (kind, width, base, offset)) (hname : isAccessName name)
      (hmodified : name = .tlbModified → kind = .store) :
      EffectCause i s (accessCause name kind (effectiveAddress (s.x .first base) offset))

/-- No instruction raises ReservedInstruction: that is the fetch's. -/
theorem EffectCause.name_ne_reserved {i : Instr} {s : State} {c : Cause} (h : EffectCause i s c) :
    c.name ≠ .reservedInstruction := by
  cases h with
  | overflow | systemCall | unusable | floatingPoint => rintro ⟨⟩
  | access _ hname _ =>
    rintro rfl
    simp [isAccessName] at hname

/-- An effect raises only what `i` can raise. -/
def EffectRaises (i : Instr) (s : State) (e : Except Cause State) : Prop := ∀ c, e = .error c → EffectCause i s c

section effects
variable {i : Instr} {s : State}

theorem effectRaises_ok (u : State) : EffectRaises i s (.ok u) := by
  rintro _ ⟨⟩

theorem effectRaises_error {c : Cause} (h : EffectCause i s c) : EffectRaises i s (.error c) := by
  rintro _ ⟨⟩
  exact h

theorem EffectRaises.ite {d e : Except Cause State} {p : Prop} [Decidable p] (hd : EffectRaises i s d)
    (he : EffectRaises i s e) : EffectRaises i s (if p then d else e) := by
  split
  · exact hd
  · exact he

theorem EffectRaises.ifCp1Usable {e : Except Cause State} (h : EffectRaises i s e) (hi : i.isCp1 = true) :
    EffectRaises i s (ifCp1Usable s e) := by
  intro c hc
  obtain ⟨hs, rfl⟩ | ⟨-, he⟩ := (ifCp1Usable_error s e c).1 hc
  · exact .unusable hi hs
  · exact h c he

theorem signedOverflow_iff (n : Int) : signedOverflow n = true ↔ n < -2 ^ 31 ∨ 2 ^ 31 ≤ n := by
  rw [signedOverflow, decide_eq_true_iff]
  omega

theorem effectRaises_writeOrTrap {rd : Reg} {n : Int} (h : n < -2 ^ 31 ∨ 2 ^ 31 ≤ n → sumOverflows i s) :
    EffectRaises i s (writeOrTrap s rd n) := by
  unfold writeOrTrap
  split
  · exact effectRaises_error (.overflow (h ((signedOverflow_iff n).1 ‹_›)))
  · exact effectRaises_ok _

theorem effectRaises_fpFinish {fd : FReg} {r : FpResult × FpFacts} (hi : i.isCp1 = true) :
    EffectRaises i s (fpFinish s fd r) := by
  intro c hc
  obtain ⟨k, -, rfl⟩ := (fpFinish_error s fd r c).1 hc
  exact .floatingPoint hi k

section access
variable {kind : AccessKind} {width : Width} {base : Reg} {offset : Imm}

/-- What MemCheck answers a data access. -/
theorem effectCause_of_memCheck {name : ExceptionName} (hi : dataAccess i = some (kind, width, base, offset))
    (h : memCheck s (effectiveAddress (s.x .first base) offset) width kind = some name) :
    EffectCause i s (accessCause name kind (effectiveAddress (s.x .first base) offset)) :=
  .access hi (memCheck_eq_some h).1 (memCheck_eq_some h).2

theorem effectCause_misaligned (hi : dataAccess i = some (kind, width, base, offset)) :
    EffectCause i s (accessCause .addressError kind (effectiveAddress (s.x .first base) offset)) :=
  .access hi (.inl rfl) (by rintro ⟨⟩)

theorem effectRaises_memRead1 {g : Option Byte → State} (hi : dataAccess i = some (.load, .byte, base, offset)) :
    EffectRaises i s ((memRead1 s (effectiveAddress (s.x .first base) offset)).map g) := by
  intro c hc
  obtain ⟨name, hcheck, rfl⟩ := (memRead1_error s _ c).1 ((mapRead_error _ g c).1 hc)
  exact effectCause_of_memCheck hi hcheck

theorem effectRaises_memRead4 {g : Option Word → State} (hi : dataAccess i = some (.load, .word, base, offset)) :
    EffectRaises i s ((memRead4 s (effectiveAddress (s.x .first base) offset)).map g) := by
  intro c hc
  obtain ⟨-, rfl⟩ | ⟨-, name, hcheck, rfl⟩ := (memRead4_error s _ c).1 ((mapRead_error _ g c).1 hc)
  · exact effectCause_misaligned hi
  · exact effectCause_of_memCheck hi hcheck

theorem effectRaises_memWrite1 {b : Byte} (hi : dataAccess i = some (.store, .byte, base, offset)) :
    EffectRaises i s (memWrite1 s (effectiveAddress (s.x .first base) offset) b) := by
  intro c hc
  obtain ⟨name, hcheck, rfl⟩ := (memWrite1_error s _ b c).1 hc
  exact effectCause_of_memCheck hi hcheck

theorem effectRaises_memWrite4 {v : Word} (hi : dataAccess i = some (.store, .word, base, offset)) :
    EffectRaises i s (memWrite4 s (effectiveAddress (s.x .first base) offset) v) := by
  intro c hc
  obtain ⟨-, rfl⟩ | ⟨-, name, hcheck, rfl⟩ := (memWrite4_error s _ v c).1 hc
  · exact effectCause_misaligned hi
  · exact effectCause_of_memCheck hi hcheck

end access

end effects

/-- The two faults of a control transfer, and the exceptions of an effect (60_exceptions.md R232). -/
def ExecFault (i : Instr) (s : State) (f : Fault) : Prop :=
  f = .controlTransferInDelaySlot ∨ f = .jalrSameRegister ∨
    ∃ c, EffectCause i s c ∧ f = exceptionFault s (some (encode i)) c

/-- If `r` faults, it does so as `i` can. -/
def FaultsOnly (i : Instr) (s : State) (r : Result) : Prop := ∀ f, r = .fault f → ExecFault i s f

section results
variable {i : Instr} {s : State}

theorem faultsOnly_finish {e : Except Cause State} (h : EffectRaises i s e) : FaultsOnly i s (finish s i e) := by
  intro f hf
  obtain ⟨c, hc, rfl⟩ := (finish_fault s i e f).1 hf
  exact .inr (.inr ⟨c, h c hc, rfl⟩)

theorem faultsOnly_ok (u : State) : FaultsOnly i s (finish s i (.ok u)) := faultsOnly_finish (effectRaises_ok u)

theorem faultsOnly_next (t : State) : FaultsOnly i s (.next t) := by
  rintro _ ⟨⟩

theorem FaultsOnly.unlessInDelaySlot {r : Result} (h : FaultsOnly i s r) :
    FaultsOnly i s (unlessInDelaySlot s r) := by
  intro f hf
  obtain ⟨-, rfl⟩ | ⟨-, hr⟩ := (unlessInDelaySlot_fault s r f).1 hf
  · exact .inl rfl
  · exact h f hr

theorem faultsOnly_jalr (rd rs : Reg) : FaultsOnly i s (execJalr rd rs s) := by
  refine FaultsOnly.unlessInDelaySlot ?_
  split
  · rintro _ ⟨⟩
    exact .inr (.inl rfl)
  · exact faultsOnly_next _

end results

/-- An instruction faults only with what its arm of `exec` can raise. -/
theorem exec_faultsOnly (i : Instr) (s : State) : FaultsOnly i s (exec i s) := by
  cases i with
  | add | sub => exact faultsOnly_finish (effectRaises_writeOrTrap id)
  | addi rt rs imm => exact faultsOnly_finish (effectRaises_writeOrTrap (by simp [sumOverflows, toInt_sextImm]))
  | addiu | addu | subu | slt | slti | sltiu | sltu => exact faultsOnly_ok _
  | and | andi | or | ori | xor | xori | nor | lui => exact faultsOnly_ok _
  | sll | sllv | sra | srav | srl | srlv | movn | movz => exact faultsOnly_ok _
  | mult | multu | mul | div | divu | mfhi | mflo => exact faultsOnly_ok _
  | addS | subS | mulS | divS => exact faultsOnly_finish ((effectRaises_fpFinish rfl).ifCp1Usable rfl)
  | movS | mfc1 | mtc1 => exact faultsOnly_finish ((effectRaises_ok _).ifCp1Usable rfl)
  | negS fd fs =>
    have raises (k : FpCause) : EffectRaises (.negS fd fs) s (.error (fpCause k)) :=
      effectRaises_error (.floatingPoint rfl k)
    exact faultsOnly_finish ((((raises _).ite (effectRaises_ok _)).ite
      ((raises _).ite (effectRaises_ok _))).ifCp1Usable rfl)
  | lb | lbu => exact faultsOnly_finish (effectRaises_memRead1 rfl)
  | lw => exact faultsOnly_finish (effectRaises_memRead4 rfl)
  | lwc1 => exact faultsOnly_finish ((effectRaises_memRead4 rfl).ifCp1Usable rfl)
  | sb => exact faultsOnly_finish (effectRaises_memWrite1 rfl)
  | sw => exact faultsOnly_finish (effectRaises_memWrite4 rfl)
  | swc1 => exact faultsOnly_finish ((effectRaises_memWrite4 rfl).ifCp1Usable rfl)
  | beq | bne | bgez | bgtz | blez | bltz | j | jal | jr => exact (faultsOnly_next _).unlessInDelaySlot
  | jalr => exact faultsOnly_jalr _ _
  | syscall => exact faultsOnly_finish (effectRaises_error (.systemCall rfl))

/-- The record of an exception that an instruction raises. -/
theorem exec_exception {i : Instr} {s : State} {rec : ExceptionRecord} (h : exec i s = .fault (.exception rec)) :
    ∃ c, EffectCause i s c ∧ rec = exceptionRecord s (some (encode i)) c := by
  obtain ⟨⟨⟩⟩ | ⟨⟨⟩⟩ | ⟨c, hc, hrec⟩ := exec_faultsOnly i s _ h
  exact ⟨c, hc, Fault.exception.inj hrec⟩

/-! ## What a fetch can raise -/

/-- A fetch that gives no word raises the exception of an access, or faults. -/
theorem fetchWord_exception {s : State} {rec : ExceptionRecord} (h : fetchWord s = .error (.exception rec)) :
    ∃ name, isAccessName name ∧ rec = exceptionRecord s none (accessCause name .fetch s.pc) := by
  by_cases haligned : wordAligned s.pc = true
  · cases hcheck : memCheck s s.pc .word .fetch with
    | some name =>
      rw [fetchWord_refused haligned hcheck] at h
      obtain ⟨⟩ := h
      exact ⟨name, (memCheck_eq_some hcheck).1, rfl⟩
    | none =>
      -- From here on a fetch gives its word or faults without an exception.
      grind [fetchWord]
  · rw [fetchWord_misaligned (Bool.eq_false_iff.2 haligned)] at h
    obtain ⟨⟩ := h
    exact ⟨.addressError, .inl rfl, rfl⟩

theorem fetchInstr_error (s : State) (f : Fault) :
    fetchInstr s = .error f ↔
      fetchWord s = .error f ∨
        ∃ w r, fetchWord s = .ok w ∧ decode w = .error r ∧
          f = exceptionFault s (some w) (plainCause .reservedInstruction) := by
  unfold fetchInstr
  cases hword : fetchWord s with
  | error g => simp
  | ok w => cases hdecode : decode w <;> simp [hdecode, eq_comm]

/-! ## Words of no row -/

/-- A word is reserved when it matches no row of the opcode table (30_encoding.md R76). -/
theorem decode_error_iff (w : Word) :
    (∃ r, decode w = .error r) ↔ ∀ r ∈ opcodeTable, w &&& r.mask ≠ r.pattern := by
  constructor
  · rintro ⟨e, he⟩ r hr hmatch
    obtain ⟨i, hi, -⟩ := exists_decode_of_match hr hmatch
    simp [hi] at he
  · intro h
    cases hdecode : decode w with
    | error e => exact ⟨e, rfl⟩
    | ok i =>
      obtain ⟨r, hr, -, hmatch⟩ := exists_row_of_decode hdecode
      exact absurd hmatch (h r hr)

/-- Opcode 010000, that of ERET, DERET and WAIT, is not in R69. -/
theorem decode_cop0 {w : Word} (h : opcodeOf w = 0b010000#6) : decode w = .error .reservedOpcode := by
  simp [decode, h]

/-- A step raises ReservedInstruction in its fetch alone, on a word of no row. -/
theorem step_reserved {s : State} {rec : ExceptionRecord} (h : step s = .fault (.exception rec))
    (hname : rec.name = .reservedInstruction) :
    ∃ w, fetchWord s = .ok w ∧ ∀ r ∈ opcodeTable, w &&& r.mask ≠ r.pattern := by
  obtain hfetch | ⟨i, -, hexec⟩ := (step_fault s _).1 h
  · obtain hword | ⟨w, e, hw, hdecode, -⟩ := (fetchInstr_error s _).1 hfetch
    · obtain ⟨name, hacc, rfl⟩ := fetchWord_exception hword
      obtain rfl : name = .reservedInstruction := hname
      simp [isAccessName] at hacc
    · exact ⟨w, hw, (decode_error_iff w).1 ⟨e, hdecode⟩⟩
  · obtain ⟨c, hc, rfl⟩ := exec_exception hexec
    exact absurd hname hc.name_ne_reserved

/-- Settles O4: a word of no row is one that does not decode, and no other cause bears the name. -/
theorem reservedWordsRaise : Obligations.ReservedWordsRaise := by
  unfold Obligations.ReservedWordsRaise
  refine ⟨fun s w hw hrows => ?_, fun s rec => step_reserved, fun w hop => ?_⟩
  · obtain ⟨e, he⟩ := (decode_error_iff w).2 hrows
    exact (step_fault s _).2 (.inl ((fetchInstr_error s _).2 (.inr ⟨w, e, hw, he, rfl⟩)))
  · exact (decode_error_iff w).1 ⟨_, decode_cop0 hop⟩

end Sys2Proof.Machine
end

section
/-! PROOFS. The fields that the assembler computes for a branch or jump (30_encoding.md R84; 43_branch_jump.md R151,
R160). A target is the destination exactly when the field holds the distance, or the bits, of the destination. -/

namespace Sys2Proof.Machine

/-! ## Branches -/

/-- What a branch adds is four times its offset. -/
theorem toInt_signExtend_offset (offset : Imm) : ((offset ++ 0#2).signExtend 32 : Word).toInt = 4 * offset.toInt := by
  rw [BitVec.toInt_signExtend_of_le (by decide), BitVec.toInt_append_zero]
  omega

/-- A branch reaches the destination that lies four times its offset from the delay slot. -/
theorem branchTarget_eq_iff (a t : Word) (offset : Imm) :
    branchTarget a offset = t ↔ (t - (a + 4#32)).toInt = 4 * offset.toInt := by
  rw [← toInt_signExtend_offset, BitVec.toInt_inj, branchTarget]
  constructor
  · rintro rfl
    rw [BitVec.add_comm (a + 4#32), BitVec.add_sub_cancel]
  · intro h
    rw [← h, BitVec.add_comm, BitVec.sub_add_cancel]

/-- The distances of R84 are the ones that have a field, and the field is the distance in words. -/
theorem branchField_eq_some_iff (a t : Word) (offset : Imm) :
    branchField a t = some offset ↔ (t - (a + 4#32)).toInt = 4 * offset.toInt := by
  have hlow := offset.le_toInt
  have hhigh := offset.toInt_lt
  simp only [branchField]
  generalize (t - (a + 4#32)).toInt = d
  split
  · rename_i hd
    rw [Option.some_inj, ← BitVec.toInt_inj, BitVec.toInt_ofInt_eq_self (by decide) (by omega) (by omega)]
    omega
  · simp only [reduceCtorEq, false_iff]
    omega

theorem branchTarget_eq_iff_branchField (a t : Word) (offset : Imm) :
    branchTarget a offset = t ↔ branchField a t = some offset :=
  (branchTarget_eq_iff a t offset).trans (branchField_eq_some_iff a t offset).symm

/-! ## Jumps -/

/-- A word is its region, its instr_index and its two low bits. -/
theorem jumpTarget_eq_iff (a t : Word) (index : BitVec 26) :
    jumpTarget a index = t ↔
      (t.extractLsb' 0 2 = 0#2 ∧ t.extractLsb' 28 4 = (a + 4#32).extractLsb' 28 4) ∧ t.extractLsb' 2 26 = index := by
  unfold jumpTarget
  generalize a + 4#32 = b
  grind

theorem jumpTarget_eq_iff_jumpField (a t : Word) (index : BitVec 26) :
    jumpTarget a index = t ↔ jumpField a t = some index := by
  simp [jumpTarget_eq_iff, jumpField]

/-- Settles O59: the assembler gives a field exactly when a target is the destination, and then it gives that field. -/
theorem assembledTargets : Obligations.AssembledTargets := by
  unfold Obligations.AssembledTargets
  intro a t
  simp only [ne_eq, branchTarget_eq_iff_branchField, jumpTarget_eq_iff_jumpField]
  refine ⟨fun _ h => h, fun h _ => ?_, fun _ h => h, fun h _ => ?_⟩ <;> simp [h]

end Sys2Proof.Machine
end

section
/-! PROOFS. Integer add, subtract and compare (40_integer_arithmetic.md R101 to R110). Each instruction writes one GPR;
what is left is that the word it writes has the exact value: the signed sum where it fits, the sum or difference modulo
2^32, or 1 or 0. -/

namespace Sys2Proof.Machine

open Statements

/-! ## The exact result, or IntegerOverflow (R101, R102, R105) -/

/-- An exact result that fits in 32 bits is the signed reading of its low word. -/
theorem toInt_lowWord {n : Int} (h : ¬ (n < -2 ^ 31 ∨ 2 ^ 31 ≤ n)) : (lowWord n).toInt = n :=
  BitVec.toInt_ofInt_eq_self (by decide) (by omega) (by omega)

theorem writeOrTrap_of_fits (s : State) (rd : Reg) {n : Int} (h : ¬ (n < -2 ^ 31 ∨ 2 ^ 31 ≤ n)) :
    writeOrTrap s rd n = .ok (s.setGpr rd (.holds (lowWord n))) :=
  if_neg (mt (signedOverflow_iff n).1 h)

theorem writeOrTrap_of_overflows (s : State) (rd : Reg) {n : Int} (h : n < -2 ^ 31 ∨ 2 ^ 31 ≤ n) :
    writeOrTrap s rd n = .error (plainCause .integerOverflow) :=
  if_pos ((signedOverflow_iff n).2 h)

/-- An instruction whose effect raises a cause without info of its own raises its exception. -/
theorem raises_of_finish {i : Instr} {s : State} {e : Except Cause State} {name : ExceptionName}
    (hexec : exec i s = finish s i e) (he : e = .error (plainCause name)) : Raises i s name := by
  rw [Raises, hexec, he]
  rfl

section trapping
variable {i : Instr} {s : State} {rd : Reg} {n : Int}

/-- A trapping instruction whose exact result fits completes with it. -/
theorem writesGpr_of_fits (hexec : exec i s = finish s i (writeOrTrap s rd n))
    (hfits : ¬ (n < -2 ^ 31 ∨ 2 ^ 31 ≤ n)) : ∃ v, WritesGpr i s rd v ∧ v.toInt = n :=
  ⟨lowWord n, leavesInGpr_of_finish hexec (writeOrTrap_of_fits s rd hfits), toInt_lowWord hfits⟩

/-- A trapping instruction whose exact result does not fit raises IntegerOverflow (60_exceptions.md R223). -/
theorem raises_of_overflows (hexec : exec i s = finish s i (writeOrTrap s rd n))
    (hoverflows : n < -2 ^ 31 ∨ 2 ^ 31 ≤ n) : Raises i s .integerOverflow :=
  raises_of_finish hexec (writeOrTrap_of_overflows s rd hoverflows)

end trapping

/-- The exact result of ADDI is that of the signed immediate (R102). -/
theorem exec_addi (rt rs : Reg) (imm : Imm) (s : State) :
    exec (.addi rt rs imm) s =
      finish s (.addi rt rs imm) (writeOrTrap s rt ((s.x .first rs).toInt + imm.toInt)) := by
  rw [← toInt_sextImm imm]
  rfl

/-- Settles O25: the three trap exactly where `sumOverflows` says, and their result is exact elsewhere. -/
theorem addAndSubExactOrTrap : Obligations.AddAndSubExactOrTrap := by
  unfold Obligations.AddAndSubExactOrTrap
  intro s rd rs rt imm
  exact ⟨writesGpr_of_fits rfl, raises_of_overflows rfl,
    writesGpr_of_fits (exec_addi rt rs imm s), raises_of_overflows (exec_addi rt rs imm s),
    writesGpr_of_fits rfl, raises_of_overflows rfl⟩

/-! ## Modulo 2^32 (R103, R104, R106) -/

/-- The difference of two words is the exact difference modulo 2^32. -/
theorem toNat_sub_word (a b : Word) : ((a - b).toNat : Int) = ((a.toNat : Int) - b.toNat) % 2 ^ 32 := by
  have hb := b.isLt
  rw [BitVec.toNat_sub]
  omega

/-- Settles O26: the sum of ADDIU is that of an effective address, base plus signed field (O36). -/
theorem addAndSubModulo : Obligations.AddAndSubModulo := by
  unfold Obligations.AddAndSubModulo
  intro s rd rs rt imm
  refine ⟨⟨_, leavesInGpr_of_finish rfl rfl, ?_⟩, ⟨_, leavesInGpr_of_finish rfl rfl, ?_⟩,
    ⟨_, leavesInGpr_of_finish rfl rfl, ?_⟩⟩
  · rw [BitVec.toNat_add]
    rfl
  · exact effectiveAddressIsTheSum (s.x .first rs) imm
  · exact toNat_sub_word _ _

/-! ## Comparisons (R107 to R110) -/

/-- The unsigned reading of a sign-extended immediate (R109): the fields from 0x8000 on stand for the top of the
range. -/
theorem toNat_sextImm (imm : Imm) :
    (sextImm imm).toNat = if imm.toNat < 2 ^ 15 then imm.toNat else imm.toNat + 0xFFFF0000 := by
  have hword := toInt_emod_word (sextImm imm)
  have himm := imm.isLt
  rw [toInt_sextImm, BitVec.toInt_eq_toNat_cond] at hword
  split at hword <;> split <;> omega

/-- An instruction that writes the outcome of a comparison completes with 1 or 0 (R100). -/
theorem writesGpr_of_comparison {i : Instr} {s : State} {rd : Reg} {p : Prop} [Decidable p]
    (hexec : exec i s = finish s i (.ok (s.setX rd (boolWord (decide p))))) :
    WritesGpr i s rd (if p then 1#32 else 0#32) :=
  leavesInGpr_of_finish hexec (by simp [boolWord])

/-- Settles O27: the four write a comparison of signed or unsigned readings, the immediate sign-extended in both. -/
theorem comparisons : Obligations.Comparisons := by
  unfold Obligations.Comparisons
  intro s rd rs rt imm
  rw [← toInt_sextImm imm, ← toNat_sextImm imm]
  exact ⟨writesGpr_of_comparison rfl, writesGpr_of_comparison rfl, writesGpr_of_comparison rfl,
    writesGpr_of_comparison rfl⟩

end Sys2Proof.Machine
end

section
/-! PROOFS. Format S (41_floating_point.md R120). A pattern is a sign and a code, its low 31 bits. The code read as a
number orders the magnitudes: consecutive codes are consecutive values of the format, through subnormals, normals and
the step from one exponent to the next. Rounding is stated on codes. -/

namespace Sys2Proof.Machine

open Statements

/-! ## The fields of a pattern -/

theorem fpExponent_eq (w : Word) : fpExponent w = w.toNat / 2 ^ 23 % 2 ^ 8 := by
  rw [fpExponent, BitVec.extractLsb'_toNat, Nat.shiftRight_eq_div_pow]

theorem fpFraction_eq (w : Word) : fpFraction w = w.toNat % 2 ^ 23 := by
  rw [fpFraction, BitVec.extractLsb'_toNat, Nat.shiftRight_zero]

theorem fpSign_iff (w : Word) : fpSign w = true ↔ 2 ^ 31 ≤ w.toNat := by
  rw [fpSign, ← BitVec.msb_eq_getLsbD_last w, BitVec.msb_eq_decide, decide_eq_true_iff]

theorem isInf_iff (w : Word) : isInf w = true ↔ fpExponent w = 255 ∧ fpFraction w = 0 := by simp [isInf]

theorem isZero_iff (w : Word) : isZero w = true ↔ fpExponent w = 0 ∧ fpFraction w = 0 := by simp [isZero]

theorem isSubnormal_iff (w : Word) : isSubnormal w = true ↔ fpExponent w = 0 ∧ fpFraction w ≠ 0 := by
  simp [isSubnormal]

/-! ## Signed values -/

/-- A magnitude with a sign. -/
def signed (neg : Bool) (y : ℚ) : ℚ := if neg then -y else y

@[simp] theorem signed_false (y : ℚ) : signed false y = y := rfl

@[simp] theorem signed_true (y : ℚ) : signed true y = -y := rfl

@[simp] theorem signed_zero (neg : Bool) : signed neg 0 = 0 := by cases neg <;> simp

/-- A number is its magnitude with its sign. -/
theorem eq_signed_abs (x : ℚ) : x = signed (decide (x < 0)) |x| := by
  rcases lt_or_ge x 0 with hneg | hnonneg
  · simp [hneg, abs_of_neg hneg]
  · simp [hnonneg.not_gt, abs_of_nonneg hnonneg]

theorem intCast_eq_signed (n : Int) : (n : ℚ) = signed (decide (n < 0)) n.natAbs := by
  simpa [Nat.cast_natAbs] using eq_signed_abs n

theorem signed_lt_zero_iff {neg : Bool} {y : ℚ} (hy : 0 < y) : signed neg y < 0 ↔ neg = true := by
  cases neg <;> simp [hy, hy.le]

theorem signed_inj {neg : Bool} {y z : ℚ} : signed neg y = signed neg z ↔ y = z := by cases neg <;> simp

section signed
variable (neg : Bool) (y z : ℚ)

@[simp] theorem signed_signed : signed neg (signed neg y) = y := by cases neg <;> simp

@[simp] theorem abs_signed : |signed neg y| = |y| := by cases neg <;> simp

theorem signed_sub_signed : signed neg y - signed neg z = signed neg (y - z) := by
  cases neg
  · rfl
  · simp only [signed_true]
    ring

theorem signed_mul_signed : signed neg y * signed neg z = y * z := by cases neg <;> simp

end signed

theorem signed_mul (neg neg' : Bool) (y z : ℚ) : signed neg y * signed neg' z = signed (neg != neg') (y * z) := by
  cases neg <;> cases neg' <;> simp

theorem signed_div (neg neg' : Bool) (y z : ℚ) : signed neg y / signed neg' z = signed (neg != neg') (y / z) := by
  rw [div_eq_mul_inv, div_eq_mul_inv, ← signed_mul]
  cases neg' <;> simp [inv_neg]

theorem signed_div_right (neg : Bool) (y z : ℚ) : signed neg y / z = signed neg (y / z) := by
  cases neg <;> simp [neg_div]

theorem signed_mul_right (neg : Bool) (y z : ℚ) : signed neg y * z = signed neg (y * z) := by
  cases neg <;> simp

theorem fpValue_eq_signed (w : Word) : (fpValue w : ℚ) = signed (fpSign w) (fpMagnitude w) := by
  cases h : fpSign w <;> simp [fpValue, h]

theorem abs_fpValue (v : Word) : |(fpValue v : ℚ)| = fpMagnitude v := by
  rw [fpValue_eq_signed, abs_signed, Nat.abs_cast]

/-- The sign column of R120: `(-1)^sign`. -/
theorem signed_fpSign (w : Word) (y : ℚ) : signed (fpSign w) y = (-1) ^ (w.toNat / 2 ^ 31) * y := by
  have hlt := w.isLt
  have hsign := fpSign_iff w
  cases h : fpSign w
  · have hzero : w.toNat / 2 ^ 31 = 0 := by grind
    rw [hzero, signed_false, pow_zero, one_mul]
  · have hone : w.toNat / 2 ^ 31 = 1 := by grind
    rw [hone, signed_true, pow_one, neg_one_mul]

/-- Settles O45: the classes by the two fields, the values by the sign and the two cases of the magnitude. -/
theorem formatOfSingles : Obligations.FormatOfSingles := by
  unfold Obligations.FormatOfSingles
  intro w
  simp only [isNaN_iff, isInf_iff, isSubnormal_iff, isZero_iff, fpValue_eq_signed, signed_fpSign, fpMagnitude,
    fpExponent_eq, fpFraction_eq, true_and]
  refine ⟨fpSign_iff w, fun hsubnormal => ?_, fun hnormal _ => ?_⟩
  · rw [if_pos hsubnormal]
  · have hexp : ((w.toNat / 2 ^ 23 % 2 ^ 8 : ℕ) - 150 : ℤ) =
        ((w.toNat / 2 ^ 23 % 2 ^ 8 - 1 : ℕ) : ℤ) + (-149) := by omega
    rw [if_neg (by omega), hexp, zpow_add₀ two_ne_zero, zpow_natCast]
    push_cast
    ring

/-! ## Classes of patterns -/

theorem isNaN_eq_false {w : Word} (h : fpFinite w) : isNaN w = false := by
  rw [← Bool.not_eq_true, isNaN_iff]
  unfold fpFinite at h
  omega

theorem isInf_eq_false {w : Word} (h : fpFinite w) : isInf w = false := by
  rw [← Bool.not_eq_true, isInf_iff]
  unfold fpFinite at h
  omega

theorem fpFinite_of_not {w : Word} (hnan : isNaN w = false) (hinf : isInf w = false) : fpFinite w := by
  rw [← Bool.not_eq_true, isNaN_iff] at hnan
  rw [← Bool.not_eq_true, isInf_iff] at hinf
  have hexp : fpExponent w < 2 ^ 8 := BitVec.isLt _
  unfold fpFinite
  omega

theorem isZero_eq_false_of_isInf {w : Word} (h : isInf w = true) : isZero w = false := by
  rw [isInf_iff] at h
  simp [isZero, h]

theorem isZero_iff_fpMagnitude (w : Word) : isZero w = true ↔ fpMagnitude w = 0 := by
  rw [isZero_iff, fpMagnitude]
  split <;> simp [*]

theorem isZero_iff_fpValue (w : Word) : isZero w = true ↔ fpValue w = 0 := by
  rw [isZero_iff_fpMagnitude, fpValue]
  split <;> simp

/-- No subnormal pattern is a NaN (R120). -/
theorem isNaN_eq_false_of_isSubnormal {w : Word} (h : isSubnormal w = true) : isNaN w = false := by
  rw [isSubnormal_iff] at h
  simp [isNaN, h]

/-! ## A pattern with its sign changed -/

theorem fpExponent_flipSign (b : Word) : fpExponent (flipSign b) = fpExponent b := by
  rw [fpExponent, flipSign, BitVec.extractLsb'_xor, show (0x80000000#32).extractLsb' 23 8 = 0#8 from rfl,
    BitVec.xor_zero, fpExponent]

theorem fpFraction_flipSign (b : Word) : fpFraction (flipSign b) = fpFraction b := by
  rw [fpFraction, flipSign, BitVec.extractLsb'_xor, show (0x80000000#32).extractLsb' 0 23 = 0#23 from rfl,
    BitVec.xor_zero, fpFraction]

theorem fpSign_flipSign (b : Word) : fpSign (flipSign b) = !fpSign b := by
  rw [fpSign, flipSign, BitVec.getLsbD_xor, show (0x80000000#32).getLsbD 31 = true from rfl, Bool.xor_true, fpSign]

theorem isInf_flipSign (b : Word) : isInf (flipSign b) = isInf b := by
  rw [isInf, fpExponent_flipSign, fpFraction_flipSign, isInf]

theorem fpValue_flipSign (b : Word) : fpValue (flipSign b) = -fpValue b := by
  have hmagnitude : fpMagnitude (flipSign b) = fpMagnitude b := by
    rw [fpMagnitude, fpExponent_flipSign, fpFraction_flipSign, fpMagnitude]
  rw [fpValue, fpSign_flipSign, hmagnitude, fpValue]
  cases fpSign b <;> simp

/-- A pattern with its sign changed keeps the other 31 bits. -/
theorem toNat_flipSign_mod (w : Word) : (flipSign w).toNat % 2 ^ 31 = w.toNat % 2 ^ 31 := by
  rw [flipSign, BitVec.toNat_xor, Nat.xor_mod_two_pow]
  exact Nat.xor_zero _

/-! ## Codes -/

/-- The magnitude, in units of 2^-149, of the pattern whose low 31 bits are `c`; the exponent of `c` may pass 255. -/
def codeMagnitude (c : Nat) : Nat :=
  if c < 2 ^ 23 then c else (2 ^ 23 + c % 2 ^ 23) * 2 ^ (c / 2 ^ 23 - 1)

theorem fpMagnitude_eq (w : Word) : fpMagnitude w = codeMagnitude (w.toNat % 2 ^ 31) := by
  have hexp : w.toNat / 2 ^ 23 % 2 ^ 8 = w.toNat % 2 ^ 31 / 2 ^ 23 := by omega
  have hfrac : w.toNat % 2 ^ 31 % 2 ^ 23 = w.toNat % 2 ^ 23 := by omega
  rw [fpMagnitude, codeMagnitude, fpExponent_eq, fpFraction_eq, hexp, hfrac]
  split <;> split <;> omega

/-- A code with exponent field `k + 1` is `n` quanta of `2^k` units; so is the code after the last of them, and so
are the subnormal codes with `k = 0`. -/
theorem codeMagnitude_quanta {k n : Nat} (hn : n ≤ 2 ^ 24) (hk : k = 0 ∨ 2 ^ 23 ≤ n) :
    codeMagnitude (k * 2 ^ 23 + n) = n * 2 ^ k := by
  unfold codeMagnitude
  rcases Nat.lt_or_ge n (2 ^ 23) with hsub | hnormal
  · obtain rfl : k = 0 := by omega
    rw [if_pos (by omega)]
    omega
  · rw [if_neg (by omega)]
    rcases hn.lt_or_eq with hlt | rfl
    · have hexp : (k * 2 ^ 23 + n) / 2 ^ 23 - 1 = k := by omega
      have hfrac : 2 ^ 23 + (k * 2 ^ 23 + n) % 2 ^ 23 = n := by omega
      rw [hexp, hfrac]
    · have hexp : (k * 2 ^ 23 + 2 ^ 24) / 2 ^ 23 - 1 = k + 1 := by omega
      have hfrac : 2 ^ 23 + (k * 2 ^ 23 + 2 ^ 24) % 2 ^ 23 = 2 ^ 23 := by omega
      rw [hexp, hfrac]
      ring

theorem exists_quanta (c : Nat) : ∃ k n, c = k * 2 ^ 23 + n ∧ n < 2 ^ 24 ∧ (k = 0 ∨ 2 ^ 23 ≤ n) :=
  ⟨c / 2 ^ 23 - 1, c - (c / 2 ^ 23 - 1) * 2 ^ 23, by omega, by omega, by omega⟩

theorem codeMagnitude_strictMono : StrictMono codeMagnitude := by
  refine strictMono_nat_of_lt_succ fun c => ?_
  obtain ⟨k, n, rfl, hn, hk⟩ := exists_quanta c
  rw [codeMagnitude_quanta hn.le hk, add_assoc, codeMagnitude_quanta hn (by omega)]
  exact Nat.mul_lt_mul_of_pos_right n.lt_succ_self (by positivity)

theorem fpFinite_iff (w : Word) : fpFinite w ↔ w.toNat % 2 ^ 31 < 0x7F800000 := by
  rw [fpFinite, fpExponent_eq]
  omega

/-! ## Patterns from a sign and a code -/

section fpPattern
variable (neg : Bool) {c : Nat} (hc : c < 2 ^ 31)

include hc

theorem toNat_fpPattern : (fpPattern neg c).toNat = neg.toNat * 2 ^ 31 + c := by
  rw [fpPattern, BitVec.toNat_append, BitVec.toNat_ofBool, BitVec.toNat_ofNat, Nat.mod_eq_of_lt hc,
    ← Nat.shiftLeft_add_eq_or_of_lt hc, Nat.shiftLeft_eq]

theorem fpSign_fpPattern : fpSign (fpPattern neg c) = neg := by
  rw [Bool.eq_iff_iff, fpSign_iff, toNat_fpPattern neg hc]
  cases neg
  · simpa using hc
  · simp

theorem fpMagnitude_fpPattern : fpMagnitude (fpPattern neg c) = codeMagnitude c := by
  rw [fpMagnitude_eq, toNat_fpPattern neg hc, Nat.mul_add_mod', Nat.mod_eq_of_lt hc]

theorem fpValue_fpPattern : (fpValue (fpPattern neg c) : ℚ) = signed neg (codeMagnitude c) := by
  rw [fpValue_eq_signed, fpSign_fpPattern neg hc, fpMagnitude_fpPattern neg hc]

theorem getLsbD_zero_fpPattern (heven : c % 2 = 0) : (fpPattern neg c).getLsbD 0 = false := by
  rw [BitVec.getLsbD, toNat_fpPattern neg hc, Nat.testBit_zero, decide_eq_false_iff_not]
  omega

end fpPattern

theorem fpFinite_fpPattern (neg : Bool) {c : Nat} (hc : c < 0x7F800000) : fpFinite (fpPattern neg c) := by
  have hcode : c < 2 ^ 31 := hc.trans (by decide)
  rw [fpFinite_iff, toNat_fpPattern neg hcode, Nat.mul_add_mod', Nat.mod_eq_of_lt hcode]
  exact hc

end Sys2Proof.Machine
end

section
/-! PROOFS. Rounding (41_floating_point.md R121, R122). An exact magnitude `y` lies between the values of two
consecutive codes, `c` and `c + 1`, and the mode picks one of them. Whether the pick is the correct rounding, whether
it overflows and whether it is exact follow from that alone, `Rounds`, which `roundMagnitude` is shown to meet. -/

namespace Sys2Proof.Machine

open Statements

/-! ## The code below an exact magnitude -/

/-- The exponent of the quantum that `roundMagnitude` takes at the magnitude `p / q`. -/
def quantumExponent (p q : Nat) : Nat := (p / q).log2 - 23

/-- The code of the largest value not above `p / q`. -/
def floorCode (p q : Nat) : Nat := quantumExponent p q * 2 ^ 23 + p / (q * 2 ^ quantumExponent p q)

section floorCode
variable (p q : Nat)

/-- `p / q` is less than `2^24` quanta, and at least `2^23` of them unless the quantum is the unit. -/
theorem quanta_bounds :
    p / (q * 2 ^ quantumExponent p q) < 2 ^ 24 ∧
      (quantumExponent p q = 0 ∨ 2 ^ 23 ≤ p / (q * 2 ^ quantumExponent p q)) := by
  rw [← Nat.div_div_eq_div_mul, quantumExponent]
  generalize p / q = m
  have hbelow : m < 2 ^ (m.log2 + 1) := Nat.lt_log2_self
  constructor
  · rw [Nat.div_lt_iff_lt_mul (by positivity), ← pow_add]
    exact hbelow.trans_le (Nat.pow_le_pow_right (by decide) (by omega))
  · rcases Nat.lt_or_ge m.log2 23 with hsmall | hlarge
    · exact .inl (by omega)
    · right
      rw [Nat.le_div_iff_mul_le (by positivity), ← pow_add, Nat.add_sub_cancel' hlarge]
      exact Nat.log2_self_le (by rintro rfl; simp at hlarge)

theorem codeMagnitude_floorCode :
    codeMagnitude (floorCode p q) = p / (q * 2 ^ quantumExponent p q) * 2 ^ quantumExponent p q :=
  codeMagnitude_quanta (quanta_bounds p q).1.le (quanta_bounds p q).2

theorem codeMagnitude_floorCode_succ :
    codeMagnitude (floorCode p q + 1) = (p / (q * 2 ^ quantumExponent p q) + 1) * 2 ^ quantumExponent p q := by
  obtain ⟨hlt, hk⟩ := quanta_bounds p q
  rw [floorCode, add_assoc]
  exact codeMagnitude_quanta hlt (by omega)

end floorCode

/-! ## The two neighbours of an exact magnitude -/

/-- When the mode rounds up the magnitude `y`, which lies from code `c` to code `c + 1`, for a result of sign `neg`
(R121). -/
def RoundsUp (mode : RoundingMode) (neg : Bool) (y : ℚ) (c : Nat) : Prop :=
  match mode with
  | .rn => (codeMagnitude c : ℚ) + codeMagnitude (c + 1) < 2 * y ∨
      ((codeMagnitude c : ℚ) + codeMagnitude (c + 1) = 2 * y ∧ c % 2 = 1)
  | .rz => False
  | .rp => neg = false ∧ codeMagnitude c < y
  | .rm => neg = true ∧ codeMagnitude c < y

/-- The magnitude `y` lies from code `c` to below code `c + 1`, and the mode rounds it up when `up` is true. -/
structure Rounds (mode : RoundingMode) (neg : Bool) (y : ℚ) (c : Nat) (up : Bool) : Prop where
  lo : (codeMagnitude c : ℚ) ≤ y
  hi : y < codeMagnitude (c + 1)
  up_iff : up = true ↔ RoundsUp mode neg y c

/-- The exact magnitude is the value of its floor code and a remainder, the next code's value that and a quantum. -/
theorem exact_eq_floorCode_add (p : Nat) {q : Nat} (hq : 0 < q) :
    (p / q : ℚ) = codeMagnitude (floorCode p q) + (p % (q * 2 ^ quantumExponent p q) : ℕ) / q ∧
      (codeMagnitude (floorCode p q + 1) : ℚ) =
        codeMagnitude (floorCode p q) + (q * 2 ^ quantumExponent p q : ℕ) / q := by
  have hdivision : (p : ℚ) = (_ : ℕ) := congrArg Nat.cast (Nat.div_add_mod p (q * 2 ^ quantumExponent p q)).symm
  rw [codeMagnitude_floorCode, codeMagnitude_floorCode_succ]
  refine ⟨?_, ?_⟩
  · nth_rw 1 [hdivision]
    push_cast
    field_simp
  · push_cast
    field_simp

/-- The bit that `roundMagnitude` adds: `n` whole quanta and the remainder `r` of a quantum `d`. -/
def roundUpBit (mode : RoundingMode) (neg : Bool) (n r d : Nat) : Bool :=
  match mode with
  | .rn => decide (d < 2 * r) || (decide (2 * r = d) && decide (n % 2 = 1))
  | .rz => false
  | .rp => !neg && decide (r ≠ 0)
  | .rm => neg && decide (r ≠ 0)

theorem roundMagnitude_eq (mode : RoundingMode) (neg : Bool) (p q : Nat) :
    roundMagnitude mode neg p q =
      (floorCode p q + (roundUpBit mode neg (p / (q * 2 ^ quantumExponent p q))
        (p % (q * 2 ^ quantumExponent p q)) (q * 2 ^ quantumExponent p q)).toNat,
      decide (p % (q * 2 ^ quantumExponent p q) ≠ 0)) := by
  cases mode <;> rfl

section remainder
variable {q : Nat} (hq : 0 < q) {n r d c : Nat} {y : ℚ} (hexact : y = codeMagnitude c + r / q)

include hq hexact

theorem codeMagnitude_lt_iff_remainder : (codeMagnitude c : ℚ) < y ↔ r ≠ 0 := by
  have hq' : (0 : ℚ) < q := by exact_mod_cast hq
  rw [hexact, lt_add_iff_pos_right, div_pos_iff_of_pos_right hq', Nat.cast_pos, Nat.pos_iff_ne_zero]

/-- The bit is the mode's choice, once remainder and quantum are put over `q`. -/
theorem roundUpBit_iff (hnext : (codeMagnitude (c + 1) : ℚ) = codeMagnitude c + d / q) (hparity : c % 2 = n % 2)
    (mode : RoundingMode) (neg : Bool) : roundUpBit mode neg n r d = true ↔ RoundsUp mode neg y c := by
  have hq' : (0 : ℚ) < q := by exact_mod_cast hq
  have hinexact := codeMagnitude_lt_iff_remainder hq hexact
  cases mode with
  | rn =>
    have hdouble : 2 * y - (codeMagnitude c + codeMagnitude (c + 1)) = ((2 * r : ℕ) - (d : ℕ) : ℚ) / q := by
      rw [hexact, hnext]
      push_cast
      ring
    have habove : (codeMagnitude c : ℚ) + codeMagnitude (c + 1) < 2 * y ↔ d < 2 * r := by
      rw [← sub_pos, hdouble, div_pos_iff_of_pos_right hq', sub_pos, Nat.cast_lt]
    have hmiddle : (codeMagnitude c : ℚ) + codeMagnitude (c + 1) = 2 * y ↔ 2 * r = d := by
      rw [eq_comm, ← sub_eq_zero, hdouble, div_eq_zero_iff, or_iff_left hq'.ne', sub_eq_zero, Nat.cast_inj]
    simp [RoundsUp, roundUpBit, habove, hmiddle, hparity]
  | rz => simp [RoundsUp, roundUpBit]
  | rp | rm => simp [RoundsUp, roundUpBit, hinexact]

end remainder

/-- `roundMagnitude` finds the code below the exact magnitude, and the mode decides between it and the next. -/
theorem exists_rounds (mode : RoundingMode) (neg : Bool) (p : Nat) {q : Nat} (hq : 0 < q) :
    ∃ c up, Rounds mode neg (p / q) c up ∧
      roundMagnitude mode neg p q = (c + up.toNat, decide ((codeMagnitude c : ℚ) < p / q)) := by
  obtain ⟨hexact, hnext⟩ := exact_eq_floorCode_add p hq
  have hparity : floorCode p q % 2 = p / (q * 2 ^ quantumExponent p q) % 2 := by
    rw [floorCode]
    omega
  have hr : p % (q * 2 ^ quantumExponent p q) < q * 2 ^ quantumExponent p q := Nat.mod_lt _ (by positivity)
  rw [roundMagnitude_eq]
  refine ⟨_, _, ⟨?_, ?_, roundUpBit_iff hq hexact hnext hparity mode neg⟩,
    Prod.ext rfl (decide_eq_decide.2 (codeMagnitude_lt_iff_remainder hq hexact).symm)⟩
  · rw [hexact]
    exact le_add_of_nonneg_right (by positivity)
  · rw [hexact, hnext]
    gcongr

/-! ## What rounding gives -/

section rounds
variable {mode : RoundingMode} {neg : Bool} {y : ℚ} {c : Nat} {up : Bool} (h : Rounds mode neg y c up)

include h

theorem Rounds.nonneg : 0 ≤ y := (Nat.cast_nonneg _).trans h.lo

/-- A magnitude that is a value of the format is not rounded up. -/
theorem Rounds.lo_lt_of_up (hup : up = true) : (codeMagnitude c : ℚ) < y := by
  have hroundsUp := h.up_iff.1 hup
  have hhi := h.hi
  cases mode with
  | rn => rcases hroundsUp with habove | ⟨hmiddle, -⟩ <;> linarith
  | rz => exact hroundsUp.elim
  | rp | rm => exact hroundsUp.2

/-- The rounded magnitude differs from the exact one exactly when the floor code's does. -/
theorem Rounds.ne_iff : (codeMagnitude (c + up.toNat) : ℚ) ≠ y ↔ (codeMagnitude c : ℚ) < y := by
  cases hup : up
  · exact ⟨h.lo.lt_of_ne, fun hlt => hlt.ne⟩
  · exact iff_of_true h.hi.ne' (h.lo_lt_of_up hup)

theorem Rounds.fpValue_ne_iff (hc : c + up.toNat < 2 ^ 31) :
    (fpValue (fpPattern neg (c + up.toNat)) : ℚ) ≠ signed neg y ↔ (codeMagnitude c : ℚ) < y := by
  rw [fpValue_fpPattern neg hc]
  exact signed_inj.not.trans h.ne_iff

end rounds

/-! ## The rounded value is the correct one -/

/-- `u` does not lie strictly between the values of the codes `c` and `c + 1`. -/
def OutsideGap (c : Nat) (u : ℚ) : Prop := u ≤ codeMagnitude c ∨ (codeMagnitude (c + 1) : ℚ) ≤ u

/-- No magnitude of the format lies strictly between the values of two consecutive codes. -/
theorem fpMagnitude_gap (v : Word) (c : Nat) : OutsideGap c (fpMagnitude v) := by
  rw [OutsideGap, fpMagnitude_eq, Nat.cast_le, Nat.cast_le]
  exact (Nat.lt_or_ge (v.toNat % 2 ^ 31) (c + 1)).imp
    (fun hlt => codeMagnitude_strictMono.monotone (Nat.le_of_lt_succ hlt))
    (fun hge => codeMagnitude_strictMono.monotone hge)

/-- A value of the format, seen from the sign of the result, is no more than the lower neighbour or no less than the
upper one. -/
theorem fpValue_gap (neg : Bool) (v : Word) (c : Nat) : OutsideGap c (signed neg (fpValue v)) := by
  have hgap := fpMagnitude_gap v c
  have habs : |signed neg (fpValue v)| = fpMagnitude v := by rw [abs_signed, abs_fpValue]
  rcases abs_choice (signed neg (fpValue v)) with hpos | hneg
  · rwa [← hpos, habs]
  · left
    have := (codeMagnitude c).cast_nonneg (α := ℚ)
    have := (fpMagnitude v).cast_nonneg (α := ℚ)
    linarith

section nearest
variable {neg : Bool} {y : ℚ} {c : Nat} {up : Bool} (h : Rounds .rn neg y c up)

include h

/-- The picked neighbour is nearest to `y` of all values. -/
theorem Rounds.nearest {u : ℚ} (hu : OutsideGap c u) :
    |y - codeMagnitude (c + up.toNat)| ≤ |y - u| := by
  have hlo := h.lo
  have hhi := h.hi
  have hup : up = true ↔ _ ∨ _ := h.up_iff
  cases up
  · change |y - codeMagnitude c| ≤ |y - u|
    grind [OutsideGap]
  · change |y - codeMagnitude (c + 1)| ≤ |y - u|
    grind [OutsideGap]

/-- Where another value is as near, the picked neighbour has an even code. -/
theorem Rounds.even_of_tie {u : ℚ} (hu : OutsideGap c u)
    (hne : u ≠ codeMagnitude (c + up.toNat)) (htie : |y - u| = |y - codeMagnitude (c + up.toNat)|) :
    (c + up.toNat) % 2 = 0 := by
  have hlo := h.lo
  have hhi := h.hi
  have hup : up = true ↔ _ ∨ _ := h.up_iff
  cases up
  · change u ≠ codeMagnitude c at hne
    change |y - u| = |y - codeMagnitude c| at htie
    grind [OutsideGap]
  · change u ≠ codeMagnitude (c + 1) at hne
    change |y - u| = |y - codeMagnitude (c + 1)| at htie
    grind [OutsideGap]

end nearest

section rounds
variable {mode : RoundingMode} {neg : Bool} {y : ℚ} {c : Nat} {up : Bool} (h : Rounds mode neg y c up)

include h

/-- Where the mode does not round up, the picked neighbour is the largest value not above `y`. -/
theorem Rounds.down (hmode : ¬ RoundsUp mode neg y c) :
    (codeMagnitude (c + up.toNat) : ℚ) ≤ y ∧
      ∀ u : ℚ, OutsideGap c u → u ≤ y → u ≤ codeMagnitude (c + up.toNat) := by
  have hup : up = false := Bool.eq_false_iff.2 fun hup => hmode (h.up_iff.1 hup)
  subst hup
  exact ⟨h.lo, fun u hu huy => hu.resolve_right fun hge => (h.hi.trans_le hge).not_ge huy⟩

/-- Where the mode rounds up whatever is inexact, the picked neighbour is the smallest value not below `y`. -/
theorem Rounds.above (hmode : RoundsUp mode neg y c ↔ (codeMagnitude c : ℚ) < y) :
    y ≤ codeMagnitude (c + up.toNat) ∧
      ∀ u : ℚ, OutsideGap c u → y ≤ u → (codeMagnitude (c + up.toNat) : ℚ) ≤ u := by
  have hup := h.up_iff.trans hmode
  have hlo := h.lo
  have hhi := h.hi
  cases up
  · change y ≤ codeMagnitude c ∧ ∀ u : ℚ, _ → y ≤ u → (codeMagnitude c : ℚ) ≤ u
    grind [OutsideGap]
  · change y ≤ codeMagnitude (c + 1) ∧ ∀ u : ℚ, _ → y ≤ u → (codeMagnitude (c + 1) : ℚ) ≤ u
    grind [OutsideGap]

end rounds

section roundsTo
variable {neg : Bool} {y : ℚ} {c : Nat} {up : Bool} {w : Word}
  (hw : (fpValue w : ℚ) = signed neg (codeMagnitude (c + up.toNat)))

include hw

/-- RN, for the two clauses of `RoundsTo`. -/
theorem Rounds.roundsToNearest (h : Rounds .rn neg y c up) (v : Word) :
    |signed neg y - fpValue w| ≤ |signed neg y - fpValue v| ∧
      (fpValue v ≠ fpValue w → |signed neg y - fpValue v| = |signed neg y - fpValue w| → (c + up.toNat) % 2 = 0) := by
  have hdist (z : ℚ) : |signed neg y - signed neg z| = |y - z| := by rw [signed_sub_signed, abs_signed]
  have hv : (fpValue v : ℚ) = signed neg (signed neg (fpValue v)) := (signed_signed _ _).symm
  have hgap := fpValue_gap neg v c
  rw [hw, hdist, hv, hdist]
  refine ⟨h.nearest hgap, fun hne => h.even_of_tie hgap fun hsame => hne ?_⟩
  rw [← hsame, ← hv] at hw
  exact Int.cast_injective hw.symm

/-- RZ: the largest magnitude not above the exact one. -/
theorem Rounds.roundsToZero (h : Rounds .rz neg y c up) :
    0 ≤ signed neg y * fpValue w ∧ |(fpValue w : ℚ)| ≤ |signed neg y| ∧
      ∀ v, |(fpValue v : ℚ)| ≤ |signed neg y| → |(fpValue v : ℚ)| ≤ |(fpValue w : ℚ)| := by
  obtain ⟨hle, hlargest⟩ := h.down id
  have hy : 0 ≤ y := h.nonneg
  simp only [hw, signed_mul_signed, abs_signed, abs_fpValue, Nat.abs_cast, abs_of_nonneg hy]
  exact ⟨by positivity, hle, fun v => hlargest _ (fpMagnitude_gap v c)⟩

/-- RP: up where the result is positive, else down in magnitude. -/
theorem Rounds.roundsToPlusInfinity (h : Rounds .rp neg y c up) :
    signed neg y ≤ fpValue w ∧ ∀ v, signed neg y ≤ fpValue v → (fpValue w : ℚ) ≤ fpValue v := by
  have hup : RoundsUp .rp neg y c ↔ neg = false ∧ (codeMagnitude c : ℚ) < y := .rfl
  rw [hw]
  cases neg
  · obtain ⟨hle, hsmallest⟩ := h.above (by simp [hup])
    exact ⟨hle, fun v => hsmallest _ (fpValue_gap false v c)⟩
  · obtain ⟨hle, hlargest⟩ := h.down (by simp [hup])
    exact ⟨neg_le_neg hle, fun v hv => neg_le.1 (hlargest _ (fpValue_gap true v c) (neg_le.1 hv))⟩

/-- RM: up in magnitude where the result is negative, else down. -/
theorem Rounds.roundsToMinusInfinity (h : Rounds .rm neg y c up) :
    fpValue w ≤ signed neg y ∧ ∀ v, (fpValue v : ℚ) ≤ signed neg y → (fpValue v : ℚ) ≤ fpValue w := by
  have hup : RoundsUp .rm neg y c ↔ neg = true ∧ (codeMagnitude c : ℚ) < y := .rfl
  rw [hw]
  cases neg
  · obtain ⟨hle, hlargest⟩ := h.down (by simp [hup])
    exact ⟨hle, fun v => hlargest _ (fpValue_gap false v c)⟩
  · obtain ⟨hle, hsmallest⟩ := h.above (by simp [hup])
    exact ⟨neg_le_neg hle, fun v hv => le_neg.1 (hsmallest _ (fpValue_gap true v c) (le_neg.1 hv))⟩

end roundsTo

/-- The picked neighbour is the correct rounding (R121). -/
theorem Rounds.roundsTo {mode : RoundingMode} {neg : Bool} {y : ℚ} {c : Nat} {up : Bool}
    (h : Rounds mode neg y c up) (hfinite : c + up.toNat < 0x7F800000) :
    RoundsTo mode (signed neg y) (fpPattern neg (c + up.toNat)) := by
  have hc : c + up.toNat < 2 ^ 31 := hfinite.trans (by decide)
  have hw := fpValue_fpPattern neg hc
  refine ⟨fpFinite_fpPattern neg hfinite, ?_⟩
  cases mode with
  | rn =>
    exact ⟨fun v _ => (h.roundsToNearest hw v).1,
      fun v _ hne htie => getLsbD_zero_fpPattern neg hc ((h.roundsToNearest hw v).2 hne htie)⟩
  | rz =>
    obtain ⟨hsign, hle, hlargest⟩ := h.roundsToZero hw
    exact ⟨hsign, hle, fun v _ _ => hlargest v⟩
  | rp =>
    obtain ⟨hle, hsmallest⟩ := h.roundsToPlusInfinity hw
    exact ⟨hle, fun v _ hv => Int.cast_le.1 (hsmallest v hv)⟩
  | rm =>
    obtain ⟨hle, hlargest⟩ := h.roundsToMinusInfinity hw
    exact ⟨hle, fun v _ hv => Int.cast_le.1 (hlargest v hv)⟩

/-! ## Overflow (R122) -/

theorem codeMagnitude_largest : (codeMagnitude 0x7F7FFFFF : ℚ) = largestFinite := by
  have h : codeMagnitude (253 * 2 ^ 23 + (2 ^ 24 - 1)) = (2 ^ 24 - 1) * 2 ^ 253 :=
    codeMagnitude_quanta (by decide) (.inr (by decide))
  rw [largestFinite, show 0x7F7FFFFF = 253 * 2 ^ 23 + (2 ^ 24 - 1) from rfl, h]
  norm_num

/-- The next value of the format, were its exponents unbounded. -/
theorem codeMagnitude_infinity : (codeMagnitude 0x7F800000 : ℚ) = largestFinite + 2 ^ 253 := by
  have h : codeMagnitude (253 * 2 ^ 23 + 2 ^ 24) = 2 ^ 24 * 2 ^ 253 :=
    codeMagnitude_quanta le_rfl (.inr (by decide))
  rw [largestFinite, show 0x7F800000 = 253 * 2 ^ 23 + 2 ^ 24 from rfl, h]
  norm_num

theorem largestFinite_pos : 0 < largestFinite := by norm_num [largestFinite]

/-- No mode overflows below the largest finite value. -/
theorem not_roundOverflows_of_lt (mode : RoundingMode) (neg : Bool) {y : ℚ} (hy : 0 ≤ y) (hlt : y < largestFinite) :
    ¬ RoundOverflows mode (signed neg y) := by
  unfold RoundOverflows
  rw [abs_signed, abs_of_nonneg hy]
  cases mode <;> cases neg <;> norm_num <;> grind

/-- Every mode overflows from the next power of two on. -/
theorem roundOverflows_of_ge (mode : RoundingMode) (neg : Bool) {y : ℚ} (hge : largestFinite + 2 ^ 253 ≤ y) :
    RoundOverflows mode (signed neg y) := by
  have hpos := largestFinite_pos
  have hy : 0 ≤ y := by linarith
  unfold RoundOverflows
  rw [abs_signed, abs_of_nonneg hy]
  cases mode <;> cases neg <;> simp only [signed_false, signed_true] <;> grind

/-- From the largest finite value to the next power of two, a mode overflows where it rounds up. -/
theorem roundOverflows_iff_roundsUp (mode : RoundingMode) (neg : Bool) {y : ℚ} (hge : largestFinite ≤ y)
    (hlt : y < largestFinite + 2 ^ 253) :
    RoundOverflows mode (signed neg y) ↔ RoundsUp mode neg y 0x7F7FFFFF := by
  have hpos := largestFinite_pos
  have hy : 0 ≤ y := by linarith
  unfold RoundOverflows RoundsUp
  rw [abs_signed, abs_of_nonneg hy, codeMagnitude_largest, codeMagnitude_infinity]
  cases mode <;> cases neg <;> simp only [signed_false, signed_true] <;> grind

/-- The rounded code passes the largest finite one exactly when the statement says that rounding overflows. -/
theorem Rounds.overflows_iff {mode : RoundingMode} {neg : Bool} {y : ℚ} {c : Nat} {up : Bool}
    (h : Rounds mode neg y c up) : 0x7F800000 ≤ c + up.toNat ↔ RoundOverflows mode (signed neg y) := by
  have hup := Bool.toNat_le up
  have hmono {m n : Nat} (hle : m ≤ n) : (codeMagnitude m : ℚ) ≤ codeMagnitude n := by
    exact_mod_cast codeMagnitude_strictMono.monotone hle
  rcases Nat.lt_trichotomy c 0x7F7FFFFF with hbelow | rfl | habove
  · have hlt : y < largestFinite := h.hi.trans_le ((hmono hbelow).trans_eq codeMagnitude_largest)
    exact iff_of_false (by omega) (not_roundOverflows_of_lt mode neg h.nonneg hlt)
  · rw [roundOverflows_iff_roundsUp mode neg (codeMagnitude_largest ▸ h.lo) (codeMagnitude_infinity ▸ h.hi),
      ← h.up_iff]
    cases up <;> decide
  · have hge : largestFinite + 2 ^ 253 ≤ y := codeMagnitude_infinity.symm.trans_le ((hmono habove).trans h.lo)
    exact iff_of_true (by omega) (roundOverflows_of_ge mode neg hge)

/-! ## The result and what is reported (R122, R125) -/

section fpRound
variable {mode : RoundingMode} {neg : Bool} {p q : Nat} (hq : 0 < q)

include hq

theorem fpRound_of_not_overflows (h : ¬ RoundOverflows mode (signed neg (p / q))) :
    ∃ c up, Rounds mode neg (p / q) c up ∧ c + up.toNat < 0x7F800000 ∧
      fpRound mode neg p q = (.bits (fpPattern neg (c + up.toNat)),
        { FpFacts.none with
          tiny := decide (p ≠ 0) && decide (p < q * 2 ^ 23)
          inexact := decide ((codeMagnitude c : ℚ) < p / q) }) := by
  obtain ⟨c, up, hround, heq⟩ := exists_rounds mode neg p hq
  have hlt : c + up.toNat < 0x7F800000 := Nat.lt_of_not_le (mt hround.overflows_iff.1 h)
  exact ⟨c, up, hround, hlt, by simp [fpRound, heq, hlt]⟩

theorem fpRound_of_overflows (h : RoundOverflows mode (signed neg (p / q))) :
    fpRound mode neg p q =
      (.bits (overflowResult mode neg), { FpFacts.none with overflow := true, inexact := true }) := by
  obtain ⟨c, up, hround, heq⟩ := exists_rounds mode neg p hq
  have hge : ¬ c + up.toNat < 0x7F800000 := Nat.not_lt.2 (hround.overflows_iff.2 h)
  simp [fpRound, heq, hge]

end fpRound

/-- A result below 2^-126 does not overflow. -/
theorem not_roundOverflows_of_isTiny (mode : RoundingMode) {x : ℚ} (h : IsTiny x) : ¬ RoundOverflows mode x := by
  obtain ⟨-, hsmall⟩ := h
  rw [eq_signed_abs x]
  exact not_roundOverflows_of_lt mode _ (abs_nonneg x) (hsmall.trans (by norm_num [largestFinite]))

/-- Below 2^-126 is below 2^23 units. -/
theorem isTiny_signed_div_iff (neg : Bool) (p : Nat) {q : Nat} (hq : 0 < q) :
    IsTiny (signed neg (p / q)) ↔ p ≠ 0 ∧ p < q * 2 ^ 23 := by
  have hq' : (0 : ℚ) < q := by exact_mod_cast hq
  have hzero : signed neg (p / q) = 0 ↔ p = 0 := by cases neg <;> simp [hq'.ne']
  rw [IsTiny, abs_signed, abs_of_nonneg (by positivity), div_lt_iff₀ hq', ne_eq, hzero, mul_comm]
  exact_mod_cast Iff.rfl

end Sys2Proof.Machine
end

section
/-! PROOFS. The four operations (41_floating_point.md R121, R122, R126 to R129). On two patterns an operation is
invalid, or exact on an infinity, or a division by zero, or it rounds a finite exact result; `FpOp.run_cases` says so
once, and each statement about results is read off from it. -/

namespace Sys2Proof.Statements

open Machine

/-! ## What rounding reports -/

/-- The result of an operation with a subnormal operand noted (R125). -/
def noteSubnormal (a b : Word) (r : FpResult × FpFacts) : FpResult × FpFacts :=
  (r.1, { r.2 with subnormalOperand := isSubnormal a || isSubnormal b })

/-- `r` is `fpRound` of the exact value `x`, a zero taken with the sign `zeroSign`. -/
def RoundsExact (mode : RoundingMode) (x : ℚ) (zeroSign : Bool) (r : FpResult × FpFacts) : Prop :=
  ∃ (neg : Bool) (p q : Nat), 0 < q ∧ x = signed neg (p / q) ∧ (x = 0 → neg = zeroSign) ∧ r = fpRound mode neg p q

section roundsExact
variable {mode : RoundingMode} {x : ℚ} {zeroSign : Bool} {r : FpResult × FpFacts} (h : RoundsExact mode x zeroSign r)

include h

/-- A rounded result that does not overflow is correct, and what it reports is exact. -/
theorem RoundsExact.roundedResult (a b : Word) (hx : ¬ RoundOverflows mode x) :
    RoundedResult mode a b x zeroSign (noteSubnormal a b r) := by
  obtain ⟨neg, p, q, hq, rfl, hzero, rfl⟩ := h
  obtain ⟨c, up, hround, hlt, hr⟩ := fpRound_of_not_overflows hq hx
  have hcode : c + up.toNat < 2 ^ 31 := hlt.trans (by decide)
  rw [RoundedResult, hr]
  refine ⟨fpPattern neg (c + up.toNat), rfl, hround.roundsTo hlt, ?_, ?_, fun hne => ?_⟩
  · rw [RoundFacts, hround.fpValue_ne_iff hcode, isTiny_signed_div_iff neg p hq]
    simp [noteSubnormal, FpFacts.none]
  · rw [fpSign_fpPattern neg hcode]
    exact hzero
  · have hpos : (0 : ℚ) < p / q := hround.nonneg.lt_of_ne fun h0 => hne (by rw [← h0, signed_zero])
    rw [fpSign_fpPattern neg hcode, signed_lt_zero_iff hpos]

/-- A rounded result that overflows is the one of R122, by mode and sign. -/
theorem RoundsExact.overflowedResult (a b : Word) (hx : RoundOverflows mode x) :
    OverflowedResult mode x (noteSubnormal a b r) := by
  obtain ⟨neg, p, q, hq, rfl, -, rfl⟩ := h
  have hlarge : largestFinite ≤ p / q :=
    not_lt.1 fun hlt => not_roundOverflows_of_lt mode neg (by positivity) hlt hx
  unfold OverflowedResult
  rw [fpRound_of_overflows hq hx]
  simp only [signed_lt_zero_iff (largestFinite_pos.trans_le hlarge)]
  exact ⟨by cases mode <;> cases neg <;> rfl, rfl, rfl, rfl, rfl⟩

/-- Rounding reports a tiny result exactly when the exact one is tiny. -/
theorem RoundsExact.tiny_iff : r.2.tiny = true ↔ IsTiny x := by
  obtain ⟨neg, p, q, hq, rfl, -, rfl⟩ := h
  by_cases hx : RoundOverflows mode (signed neg (p / q))
  · rw [fpRound_of_overflows hq hx]
    exact iff_of_false Bool.false_ne_true fun htiny => not_roundOverflows_of_isTiny mode htiny hx
  · obtain ⟨c, up, -, -, hr⟩ := fpRound_of_not_overflows hq hx
    rw [hr, isTiny_signed_div_iff neg p hq]
    simp

/-- Rounding gives a pattern, and reports no invalid operation and no division by zero. -/
theorem RoundsExact.facts : r.1 ≠ .someNaN ∧ r.2.invalid = false ∧ r.2.divByZero = false := by
  obtain ⟨neg, p, q, hq, rfl, -, rfl⟩ := h
  by_cases hx : RoundOverflows mode (signed neg (p / q))
  · rw [fpRound_of_overflows hq hx]
    exact ⟨nofun, rfl, rfl⟩
  · obtain ⟨c, up, -, -, hr⟩ := fpRound_of_not_overflows hq hx
    rw [hr]
    exact ⟨nofun, rfl, rfl⟩

end roundsExact

/-! ## What an operation computes -/

/-- The sign of a result that is exactly zero (R121). -/
def FpOp.zeroSign (op : FpOp) (mode : RoundingMode) (a b : Word) : Bool :=
  match op with
  | .add => zeroSumSign mode (fpSign a) (fpSign b)
  | .sub => zeroSumSign mode (fpSign a) (!fpSign b)
  | .mul | .div => fpSign a != fpSign b

/-- The result of a valid operation with an infinite operand (R126 to R129). -/
def FpOp.infiniteResult (op : FpOp) (a b : Word) : Word :=
  match op with
  | .add => if isInf a then a else b
  | .sub => if isInf a then a else flipSign b
  | .mul => fpInfinity (fpSign a != fpSign b)
  | .div => if isInf a then fpInfinity (fpSign a != fpSign b) else fpZero (fpSign a != fpSign b)

/-- The operation has a NaN operand or is one of the invalid ones of R122. -/
def FpOp.Invalid (op : FpOp) (a b : Word) : Prop := isNaN a = true ∨ isNaN b = true ∨ op.invalidOn a b

/-- What `op` computes from `a` and `b`, before a subnormal operand is noted. -/
inductive FpOp.Computes (op : FpOp) (mode : RoundingMode) (a b : Word) : FpResult × FpFacts → Prop where
  | invalid (h : op.Invalid a b) : op.Computes mode a b fpInvalid
  | infinite (hvalid : ¬ op.Invalid a b) (hinf : isInf a = true ∨ isInf b = true) :
      op.Computes mode a b (fpExact (op.infiniteResult a b))
  | zeroDivisor (hvalid : ¬ op.Invalid a b) (hop : op = .div) (hb : isZero b = true) :
      op.Computes mode a b
        (.bits (fpInfinity (fpSign a != fpSign b)), { FpFacts.none with divByZero := true })
  | finite {r : FpResult × FpFacts} (h : op.finiteOn a b)
      (hr : RoundsExact mode (op.exact a b) (op.zeroSign mode a b) r) : op.Computes mode a b r

/-! ### Exact results on finite operands -/

/-- A zero is its own rounding. -/
theorem fpExact_fpZero (mode : RoundingMode) (neg : Bool) : fpExact (fpZero neg) = fpRound mode neg 0 1 := by
  cases mode <;> cases neg <;> rfl

/-- A sum of finite operands rounds the exact sum; one that is zero has the sign of R121. -/
theorem roundsExact_addNumbers (mode : RoundingMode) {a b : Word} (ha : isInf a = false) (hb : isInf b = false) :
    RoundsExact mode (fpValue a + fpValue b) (zeroSumSign mode (fpSign a) (fpSign b)) (addNumbers mode a b) := by
  have hadd : addNumbers mode a b = if fpValue a + fpValue b = 0 then
      fpExact (fpZero (zeroSumSign mode (fpSign a) (fpSign b)))
      else fpRound mode (decide (fpValue a + fpValue b < 0)) (fpValue a + fpValue b).natAbs 1 := by
    simp [addNumbers, ha, hb]
  rw [hadd, ← Int.cast_add]
  generalize fpValue a + fpValue b = n
  split
  next hzero => exact ⟨_, 0, 1, one_pos, by simp [hzero], fun _ => rfl, fpExact_fpZero mode _⟩
  next hzero =>
    refine ⟨_, n.natAbs, 1, one_pos, ?_, fun h => absurd (Int.cast_eq_zero.1 h) hzero, rfl⟩
    rw [Nat.cast_one, div_one, ← intCast_eq_signed]

/-- A product of finite operands rounds the exact product. -/
theorem roundsExact_mulNumbers (mode : RoundingMode) {a b : Word} (ha : isInf a = false) (hb : isInf b = false) :
    RoundsExact mode (fpValue a * fpValue b / 2 ^ 149) (fpSign a != fpSign b) (mulNumbers mode a b) := by
  refine ⟨fpSign a != fpSign b, fpMagnitude a * fpMagnitude b, 2 ^ 149, by positivity, ?_, fun _ => rfl, ?_⟩
  · rw [fpValue_eq_signed, fpValue_eq_signed, signed_mul, signed_div_right]
    push_cast
    rfl
  · simp [mulNumbers, ha, hb]

/-- A quotient of finite operands, the divisor not zero, rounds the exact quotient. -/
theorem roundsExact_divNumbers (mode : RoundingMode) {a b : Word} (ha : isInf a = false) (hb : isInf b = false)
    (hzero : isZero b = false) :
    RoundsExact mode (fpValue a * 2 ^ 149 / fpValue b) (fpSign a != fpSign b) (divNumbers mode a b) := by
  have hpos : 0 < fpMagnitude b := Nat.pos_of_ne_zero fun h => by simp [(isZero_iff_fpMagnitude b).2 h] at hzero
  refine ⟨fpSign a != fpSign b, fpMagnitude a * 2 ^ 149, fpMagnitude b, hpos, ?_, fun _ => rfl, ?_⟩
  · rw [fpValue_eq_signed, fpValue_eq_signed, signed_mul_right, signed_div]
    push_cast
    rfl
  · simp [divNumbers, ha, hb, hzero]

/-- What an operation computes from two patterns that are no NaN. -/
def FpOp.numbers (op : FpOp) (mode : RoundingMode) (a b : Word) : FpResult × FpFacts :=
  match op with
  | .add => addNumbers mode a b
  | .sub => addNumbers mode a (flipSign b)
  | .mul => mulNumbers mode a b
  | .div => divNumbers mode a b

theorem FpOp.run_eq_fpBinary (op : FpOp) (mode : RoundingMode) (a b : Word) :
    op.run mode a b = fpBinary a b (op.numbers mode a b) := by
  cases op <;> rfl

/-- An operation on finite operands, the divisor not zero, rounds its exact result. -/
theorem FpOp.roundsExact_numbers (op : FpOp) (mode : RoundingMode) {a b : Word} (h : op.finiteOn a b) :
    RoundsExact mode (op.exact a b) (op.zeroSign mode a b) (op.numbers mode a b) := by
  obtain ⟨hfa, hfb, hdiv⟩ := h
  have ha := isInf_eq_false hfa
  have hb := isInf_eq_false hfb
  cases op with
  | add => exact roundsExact_addNumbers mode ha hb
  | sub =>
    have hsub := roundsExact_addNumbers mode ha ((isInf_flipSign b).trans hb)
    rwa [fpValue_flipSign, fpSign_flipSign, Int.cast_neg, ← sub_eq_add_neg] at hsub
  | mul => exact roundsExact_mulNumbers mode ha hb
  | div => exact roundsExact_divNumbers mode ha hb (Bool.eq_false_iff.2 (mt (isZero_iff_fpValue b).1 (hdiv rfl)))

/-! ### The four ways an operation can go -/

theorem FpOp.not_invalid_of_finiteOn {op : FpOp} {a b : Word} (h : op.finiteOn a b) : ¬ op.Invalid a b := by
  obtain ⟨ha, hb, hdiv⟩ := h
  rw [ne_eq, ← isZero_iff_fpValue] at hdiv
  cases op <;> simp_all [FpOp.Invalid, FpOp.invalidOn, isNaN_eq_false, isInf_eq_false]

/-- A valid operation with an infinite operand (R126 to R129). -/
theorem FpOp.numbers_of_isInf (op : FpOp) (mode : RoundingMode) {a b : Word} (hvalid : ¬ op.invalidOn a b)
    (hinf : isInf a = true ∨ isInf b = true) : op.numbers mode a b = fpExact (op.infiniteResult a b) := by
  cases op with
  | add => grind [FpOp.numbers, addNumbers, FpOp.infiniteResult, FpOp.invalidOn]
  | sub => grind [FpOp.numbers, addNumbers, FpOp.infiniteResult, FpOp.invalidOn, isInf_flipSign, fpSign_flipSign]
  | mul => grind [FpOp.numbers, mulNumbers, FpOp.infiniteResult, FpOp.invalidOn, isZero_eq_false_of_isInf]
  | div => grind [FpOp.numbers, divNumbers, FpOp.infiniteResult, FpOp.invalidOn, isZero_eq_false_of_isInf]

/-- A finite value that is not zero, divided by zero (R122). -/
theorem divNumbers_of_isZero (mode : RoundingMode) {a b : Word} (ha : isInf a = false) (hb : isInf b = false)
    (hzero : isZero b = true) (hvalid : isZero a = false) :
    divNumbers mode a b = (.bits (fpInfinity (fpSign a != fpSign b)), { FpFacts.none with divByZero := true }) := by
  simp [divNumbers, ha, hb, hzero, hvalid]

/-- A valid operation is on an infinity, or divides a finite value by zero, or has a finite exact result. -/
theorem FpOp.computes_numbers (op : FpOp) (mode : RoundingMode) {a b : Word} (hvalid : ¬ op.Invalid a b) :
    op.Computes mode a b (op.numbers mode a b) := by
  have hvalid' := hvalid
  simp only [FpOp.Invalid, not_or, Bool.not_eq_true] at hvalid'
  obtain ⟨hnanA, hnanB, hop⟩ := hvalid'
  by_cases hinf : isInf a = true ∨ isInf b = true
  · rw [op.numbers_of_isInf mode hop hinf]
    exact .infinite hvalid hinf
  · simp only [not_or, Bool.not_eq_true] at hinf
    obtain ⟨ha, hb⟩ := hinf
    have hfinite := fpFinite_of_not hnanA ha
    by_cases hzero : op = .div ∧ isZero b = true
    · obtain ⟨rfl, hzero⟩ := hzero
      have hne : isZero a = false := Bool.eq_false_iff.2 fun h => hop (.inl ⟨h, hzero⟩)
      rw [FpOp.numbers, divNumbers_of_isZero mode ha hb hzero hne]
      exact .zeroDivisor hvalid rfl hzero
    · rw [isZero_iff_fpValue] at hzero
      have hon : op.finiteOn a b := ⟨hfinite, fpFinite_of_not hnanB hb, not_and.1 hzero⟩
      exact .finite hon (op.roundsExact_numbers mode hon)

theorem FpOp.numbers_of_invalidOn {op : FpOp} (mode : RoundingMode) {a b : Word} (h : op.invalidOn a b) :
    op.numbers mode a b = fpInvalid := by
  cases op with
  | add => grind [FpOp.numbers, addNumbers, FpOp.invalidOn]
  | sub => grind [FpOp.numbers, addNumbers, FpOp.invalidOn, isInf_flipSign, fpSign_flipSign]
  | mul => grind [FpOp.numbers, mulNumbers, FpOp.invalidOn]
  | div => grind [FpOp.numbers, divNumbers, FpOp.invalidOn, isZero_eq_false_of_isInf]

/-- A valid operation computes on its operands as numbers. -/
theorem FpOp.run_of_valid (op : FpOp) (mode : RoundingMode) {a b : Word} (h : ¬ op.Invalid a b) :
    op.run mode a b = noteSubnormal a b (op.numbers mode a b) := by
  rw [op.run_eq_fpBinary, fpBinary, if_neg (by grind [FpOp.Invalid]), noteSubnormal]

theorem FpOp.run_of_finiteOn (op : FpOp) (mode : RoundingMode) {a b : Word} (h : op.finiteOn a b) :
    op.run mode a b = noteSubnormal a b (op.numbers mode a b) :=
  op.run_of_valid mode (FpOp.not_invalid_of_finiteOn h)

/-- What an operation does, on all operands. -/
theorem FpOp.run_cases (op : FpOp) (mode : RoundingMode) (a b : Word) :
    ∃ r, op.Computes mode a b r ∧ op.run mode a b = noteSubnormal a b r := by
  by_cases hinvalid : op.Invalid a b
  · refine ⟨fpInvalid, .invalid hinvalid, ?_⟩
    rw [op.run_eq_fpBinary, fpBinary, noteSubnormal]
    split
    · rfl
    · rw [FpOp.numbers_of_invalidOn mode (by grind [FpOp.Invalid])]
  · exact ⟨_, op.computes_numbers mode hinvalid, op.run_of_valid mode hinvalid⟩

/-! ## The statements about results -/

/-- An operation whose finite exact result does not overflow is correctly rounded. -/
theorem FpOp.roundedResult (op : FpOp) {mode : RoundingMode} {a b : Word} (h : op.finiteOn a b)
    (hx : ¬ RoundOverflows mode (op.exact a b)) :
    RoundedResult mode a b (op.exact a b) (op.zeroSign mode a b) (op.run mode a b) := by
  rw [op.run_of_finiteOn mode h]
  exact (op.roundsExact_numbers mode h).roundedResult a b hx

/-- Settles O46: a difference is the sum with the second operand's sign changed. -/
theorem sumsRoundCorrectly : Obligations.SumsRoundCorrectly := by
  unfold Obligations.SumsRoundCorrectly
  intro mode a b ha hb
  have hadd : FpOp.add.zeroSign mode a b = if fpSign a = fpSign b then fpSign a else decide (mode = .rm) := rfl
  have hsub : FpOp.sub.zeroSign mode a b = if fpSign a = fpSign b then decide (mode = .rm) else fpSign a := by
    cases hsa : fpSign a <;> cases hsb : fpSign b <;> cases mode <;> simp [FpOp.zeroSign, zeroSumSign, hsa, hsb]
  rw [← hadd, ← hsub]
  exact ⟨FpOp.add.roundedResult ⟨ha, hb, nofun⟩, FpOp.sub.roundedResult ⟨ha, hb, nofun⟩⟩

/-- Settles O47: the exact product of finite operands is rounded once. -/
theorem productsRoundCorrectly : Obligations.ProductsRoundCorrectly := by
  unfold Obligations.ProductsRoundCorrectly
  intro mode a b ha hb
  exact FpOp.mul.roundedResult ⟨ha, hb, nofun⟩

/-- Settles O48: the exact quotient is rounded once. -/
theorem quotientsRoundCorrectly : Obligations.QuotientsRoundCorrectly := by
  unfold Obligations.QuotientsRoundCorrectly
  intro mode a b
  exact FpOp.div.roundedResult

/-- Settles O49: all four round a finite exact result, and overflow is a matter of the rounding alone. -/
theorem overflowedResults : Obligations.OverflowedResults := by
  unfold Obligations.OverflowedResults
  intro op mode a b h hx
  rw [op.run_of_finiteOn mode h]
  exact (op.roundsExact_numbers mode h).overflowedResult a b hx

/-- Settles O50: of the ways an operation can go, the invalid one alone reports InvalidOperation. -/
theorem invalidOperationExactly : Obligations.InvalidOperationExactly := by
  unfold Obligations.InvalidOperationExactly
  intro op mode a b
  change (_ ↔ op.Invalid a b) ∧ _
  obtain ⟨r, hr, hrun⟩ := op.run_cases mode a b
  rw [hrun]
  cases hr with
  | invalid h => simp [noteSubnormal, fpInvalid, FpFacts.none, h]
  | infinite hvalid => simp [noteSubnormal, fpExact, FpFacts.none, hvalid]
  | zeroDivisor hvalid => simp [noteSubnormal, FpFacts.none, hvalid]
  | finite h hr =>
    obtain ⟨hbits, hinvalid, -⟩ := hr.facts
    simp [noteSubnormal, hbits, hinvalid, FpOp.not_invalid_of_finiteOn h]

/-- Infinity with the exclusive-or of the signs. -/
theorem fpInfinity_bne (sa sb : Bool) :
    fpInfinity (sa != sb) = if sa = sb then 0x7F800000#32 else 0xFF800000#32 := by
  cases sa <;> cases sb <;> rfl

theorem fpZero_bne (sa sb : Bool) : fpZero (sa != sb) = if sa = sb then 0x00000000#32 else 0x80000000#32 := by
  cases sa <;> cases sb <;> rfl

/-- Settles O51: a valid operation on an infinity is exact, and a division by zero is the one case beside it. -/
theorem infinityAndZeroDivisor : Obligations.InfinityAndZeroDivisor := by
  unfold Obligations.InfinityAndZeroDivisor
  intro op mode a b hnanA hnanB hop
  have hvalid : ¬ op.Invalid a b := by simp [FpOp.Invalid, hnanA, hnanB, hop]
  rw [op.run_of_valid mode hvalid]
  constructor
  · intro hinf
    rw [op.numbers_of_isInf mode hop hinf]
    refine ⟨congrArg FpResult.bits ?_, rfl, rfl, rfl, rfl⟩
    cases op with
    | add | sub => rfl
    | mul => exact fpInfinity_bne _ _
    | div => rw [FpOp.infiniteResult, fpInfinity_bne, fpZero_bne]
  · rintro rfl hzero ha
    have hne : isZero a = false := Bool.eq_false_iff.2 fun h => hop (.inl ⟨h, hzero⟩)
    have hb : isInf b = false := Bool.eq_false_iff.2 fun h => by simp [isZero_eq_false_of_isInf h] at hzero
    rw [FpOp.numbers, divNumbers_of_isZero mode ha hb hzero hne]
    exact ⟨congrArg FpResult.bits (fpInfinity_bne _ _), rfl, rfl, rfl, rfl⟩

/-! ## What an operation reports -/

/-- An operation reports a tiny result exactly when it has a finite exact result and that is tiny (R125). -/
theorem FpOp.tiny_iff (op : FpOp) (mode : RoundingMode) (a b : Word) :
    (op.run mode a b).2.tiny = true ↔ op.finiteOn a b ∧ IsTiny (op.exact a b) := by
  obtain ⟨r, hr, hrun⟩ := op.run_cases mode a b
  rw [hrun]
  cases hr with
  | invalid h => exact iff_of_false Bool.false_ne_true fun htiny => FpOp.not_invalid_of_finiteOn htiny.1 h
  | infinite _ hinf =>
    refine iff_of_false Bool.false_ne_true ?_
    rintro ⟨⟨ha, hb, -⟩, -⟩
    simp [isInf_eq_false ha, isInf_eq_false hb] at hinf
  | zeroDivisor _ hop hzero =>
    refine iff_of_false Bool.false_ne_true ?_
    rintro ⟨⟨-, -, hdiv⟩, -⟩
    exact hdiv hop ((isZero_iff_fpValue b).1 hzero)
  | finite hon hr => exact hr.tiny_iff.trans (and_iff_right hon).symm

/-- Only a division reports DivisionByZero. -/
theorem FpOp.eq_div_of_divByZero {op : FpOp} {mode : RoundingMode} {a b : Word}
    (h : (op.run mode a b).2.divByZero = true) : op = .div := by
  obtain ⟨r, hr, hrun⟩ := op.run_cases mode a b
  rw [hrun] at h
  cases hr with
  | invalid | infinite => cases h
  | zeroDivisor _ hop => exact hop
  | finite _ hr =>
    obtain ⟨-, -, hnone⟩ := hr.facts
    exact absurd (hnone.symm.trans h) Bool.false_ne_true

theorem FpOp.subnormalOperand_iff (op : FpOp) (mode : RoundingMode) (a b : Word) :
    (op.run mode a b).2.subnormalOperand = true ↔ isSubnormal a = true ∨ isSubnormal b = true := by
  rw [op.run_eq_fpBinary, fpBinary, Bool.or_eq_true]

end Sys2Proof.Statements
end

section
/-! PROOFS. The floating-point instructions (41_floating_point.md R122, R125, R130 to R133; 60_exceptions.md R231,
R236). Each is `finish` around an effect under the CP1 guard; `fpRaised` is the choice of a cause in the order of
FPFinish. -/

namespace Sys2Proof.Machine

open Statements

/-! ## The cause that FPFinish raises -/

/-- A cause arises and is enabled. -/
def causeRaises (p : Params) (f : FpFacts) (c : FpCause) : Bool :=
  match c with
  | .unimplementedOperation => unimplementedArises p f
  | .invalidOperation => f.invalid && p.fpEnables.invalid
  | .divisionByZero => f.divByZero && p.fpEnables.divByZero
  | .overflow => f.overflow && p.fpEnables.overflow
  | .underflow => underflowArises p f && p.fpEnables.underflow
  | .inexact => f.inexact && p.fpEnables.inexact

theorem causeRaises_iff (p : Params) (f : FpFacts) (c : FpCause) :
    causeRaises p f c = true ↔ Arises p f c ∧ Enabled p c := by
  cases c with
  | unimplementedOperation => simp [causeRaises, Arises, Enabled, unimplementedArises]
  | underflow => simp [causeRaises, Arises, Enabled, underflowArises, and_assoc]
  | invalidOperation | divisionByZero | overflow | inexact => simp [causeRaises, Arises, Enabled]

/-- FPFinish takes the causes in their order (R122). -/
theorem fpRaised_eq (p : Params) (f : FpFacts) : fpRaised p f =
    if causeRaises p f .unimplementedOperation then some .unimplementedOperation
    else if causeRaises p f .invalidOperation then some .invalidOperation
    else if causeRaises p f .divisionByZero then some .divisionByZero
    else if causeRaises p f .overflow then some .overflow
    else if causeRaises p f .underflow then some .underflow
    else if causeRaises p f .inexact then some .inexact
    else none := rfl

theorem fpRaised_eq_none {p : Params} {f : FpFacts} (h : ∀ c, ¬ (Arises p f c ∧ Enabled p c)) :
    fpRaised p f = none := by
  have hnot (c : FpCause) : ¬ causeRaises p f c = true := mt (causeRaises_iff p f c).1 (h c)
  simp only [fpRaised_eq, hnot, Bool.false_eq_true, if_false]

/-- The cause that FPFinish raises arises and is enabled. -/
theorem arises_of_fpRaised {p : Params} {f : FpFacts} {c : FpCause} (h : fpRaised p f = some c) :
    Arises p f c ∧ Enabled p c := by
  rw [fpRaised_eq] at h
  rw [← causeRaises_iff]
  grind

/-- A cause that arises and is enabled is raised when none before it is. -/
theorem fpRaised_eq_some {p : Params} {f : FpFacts} {c : FpCause} (h : Arises p f c ∧ Enabled p c)
    (hfirst : ∀ c', causeRank c' < causeRank c → ¬ (Arises p f c' ∧ Enabled p c')) : fpRaised p f = some c := by
  have hnot (c' : FpCause) (hc : causeRank c' < causeRank c) : ¬ causeRaises p f c' = true :=
    mt (causeRaises_iff p f c').1 (hfirst c' hc)
  rw [← causeRaises_iff] at h
  rw [fpRaised_eq]
  cases c <;> grind [causeRank]

theorem fpRaised_eq_unimplemented_iff (p : Params) (f : FpFacts) :
    fpRaised p f = some .unimplementedOperation ↔
      p.fpSubnormal = .unimplemented ∧ (f.subnormalOperand = true ∨ f.tiny = true) :=
  ⟨fun h => (arises_of_fpRaised h).1, fun h => fpRaised_eq_some ⟨h, trivial⟩ fun _ hc => absurd hc (Nat.not_lt_zero _)⟩

/-! ## ADD.S, SUB.S, MUL.S and DIV.S -/

/-- An instruction whose effect is one write to an FPR leaves there what it writes, and changes nothing else. -/
theorem leavesInFpr_of_finish {i : Instr} {s : State} {e : Except Cause State} {fd : FReg} {c : Contents}
    (hexec : exec i s = finish s i e) (he : e = .ok (s.setFpr fd c)) : LeavesInFpr i s fd c := by
  refine ⟨(s.setFpr fd c).advance, by rw [hexec, he, finish_ok], ?_, by simp, by simp [AdvancesInOrder]⟩
  exact ⟨s.fprAt_setFpr_same fd c, fun r hr => s.fprAt_setFpr_ne fd r c hr, fun _ => rfl, ⟨rfl, rfl⟩,
    by simp [SameMemory], rfl⟩

/-- An instruction raises an exception whose record has the common fields only exactly when its effect does. -/
theorem raises_iff_of_finish {i : Instr} {s : State} {e : Except Cause State} {name : ExceptionName}
    (hexec : exec i s = finish s i e) : Raises i s name ↔ e = .error (plainCause name) := by
  refine ⟨fun h => ?_, raises_of_finish hexec⟩
  rw [Raises, hexec, finish_fault] at h
  obtain ⟨⟨name', kind, badaddr, cop⟩, rfl, hrec⟩ := h
  cases hrec
  rfl

/-- With CP1_USABLE true the guard lets the effect through. -/
theorem ifCp1Usable_of_usable {s : State} (h : s.params.cp1Usable = true) (e : Except Cause State) :
    ifCp1Usable s e = e := if_pos h

/-- With CP1_USABLE false an instruction under the guard raises CoprocessorUnusable. -/
theorem raisesUnusable_of_finish {i : Instr} {s : State} {e : Except Cause State}
    (hexec : exec i s = finish s i (ifCp1Usable s e)) (h : s.params.cp1Usable = false) : RaisesUnusable i s := by
  rw [RaisesUnusable, hexec, ifCp1Usable, if_neg (Bool.eq_false_iff.1 h)]
  rfl

section fpOp
variable (op : FpOp) {s : State} (fd fs ft : FReg)

/-- Each of the four is FPFinish of its configuration function under the CP1 guard. -/
theorem exec_fpOp (s : State) : exec (op.instr fd fs ft) s = finish s (op.instr fd fs ft)
    (ifCp1Usable s (fpFinish s fd (op.run s.params.fpRm (s.f .first fs) (s.f .second ft)))) := by
  cases op <;> rfl

theorem exec_fpOp_of_usable (h : s.params.cp1Usable = true) : exec (op.instr fd fs ft) s =
    finish s (op.instr fd fs ft) (fpFinish s fd (op.run s.params.fpRm (s.f .first fs) (s.f .second ft))) := by
  rw [exec_fpOp, ifCp1Usable_of_usable h]

/-- One of the four raises the cause that FPFinish chooses. -/
theorem raises_fpOp_iff (h : s.params.cp1Usable = true) (c : FpCause) :
    Raises (op.instr fd fs ft) s (.floatingPoint c) ↔
      fpRaised s.params (op.run s.params.fpRm (s.f .first fs) (s.f .second ft)).2 = some c := by
  rw [raises_iff_of_finish (exec_fpOp_of_usable op fd fs ft h), fpFinish_error]
  refine ⟨?_, fun hc => ⟨c, hc, rfl⟩⟩
  rintro ⟨k, hk, hcause⟩
  cases hcause
  exact hk

theorem leavesInFpr_fpOp (h : s.params.cp1Usable = true)
    (hnone : fpRaised s.params (op.run s.params.fpRm (s.f .first fs) (s.f .second ft)).2 = none) :
    LeavesInFpr (op.instr fd fs ft) s fd (op.run s.params.fpRm (s.f .first fs) (s.f .second ft)).1.contents :=
  leavesInFpr_of_finish (exec_fpOp_of_usable op fd fs ft h) ((fpFinish_ok _ _ _ _).2 ⟨hnone, rfl⟩)

end fpOp

/-- Settles O52: FPFinish raises the first cause in the order, or writes the result. -/
theorem fpFinishInOrder : Obligations.FpFinishInOrder := by
  unfold Obligations.FpFinishInOrder
  intro op s fd fs ft r f husable hrun
  constructor
  · intro hnone
    have hleaves := leavesInFpr_fpOp op fd fs ft husable (by rw [hrun]; exact fpRaised_eq_none hnone)
    rw [hrun] at hleaves
    exact ⟨by rintro w rfl; exact hleaves, by rintro rfl; exact hleaves⟩
  · intro c harises henabled hfirst
    rw [raises_fpOp_iff op fd fs ft husable, hrun]
    exact fpRaised_eq_some ⟨harises, henabled⟩ hfirst

/-- Settles O54: UnimplementedOperation is the first cause, and it is always enabled. -/
theorem unimplementedExactly : Obligations.UnimplementedExactly := by
  unfold Obligations.UnimplementedExactly
  intro op s fd fs ft husable
  rw [raises_fpOp_iff op fd fs ft husable, fpRaised_eq_unimplemented_iff, op.subnormalOperand_iff, op.tiny_iff, or_assoc]

/-! ## MOV.S, MFC1, MTC1 and NEG.S -/

/-- Settles O55: each is one write under the CP1 guard. -/
theorem fpMovesCopyBits : Obligations.FpMovesCopyBits := by
  unfold Obligations.FpMovesCopyBits
  intro s fd fs rt
  refine ⟨fun husable => ?_, fun hunusable => ?_⟩
  · exact ⟨leavesInFpr_of_finish rfl (ifCp1Usable_of_usable husable _),
      leavesInGpr_of_finish rfl (ifCp1Usable_of_usable husable _),
      leavesInFpr_of_finish rfl (ifCp1Usable_of_usable husable _)⟩
  · exact ⟨raisesUnusable_of_finish rfl hunusable, raisesUnusable_of_finish rfl hunusable,
      raisesUnusable_of_finish rfl hunusable⟩

/-- What NEG.S does under the CP1 guard (R131). -/
def negEffect (s : State) (fd : FReg) (a : Word) : Except Cause State :=
  if isNaN a then
    if s.params.fpEnables.invalid then .error (fpCause .invalidOperation) else .ok (s.setFpr fd .someNaN)
  else if isSubnormal a && s.params.fpSubnormal == .unimplemented then .error (fpCause .unimplementedOperation)
  else .ok (s.setFpr fd (.holds (flipSign a)))

theorem exec_negS (s : State) (fd fs : FReg) :
    exec (.negS fd fs) s = finish s (.negS fd fs) (ifCp1Usable s (negEffect s fd (s.f .first fs))) := rfl

theorem negEffect_error {s : State} {fd : FReg} {a : Word} {c : Cause} (h : negEffect s fd a = .error c) :
    c = fpCause .invalidOperation ∨ c = fpCause .unimplementedOperation := by
  grind [negEffect]

/-- Settles O56: the four clauses are the branches of `negEffect`. -/
theorem negateSingle : Obligations.NegateSingle := by
  unfold Obligations.NegateSingle
  intro s fd fs
  refine ⟨raisesUnusable_of_finish (exec_negS s fd fs), fun husable => ?_⟩
  have hexec : exec (.negS fd fs) s = finish s (.negS fd fs) (negEffect s fd (s.f .first fs)) := by
    rw [exec_negS, ifCp1Usable_of_usable husable]
  refine ⟨fun hnan hon => ?_, fun hnan hoff => ?_, fun hsub hmode => ?_, fun hnan hsub => ?_⟩
  · exact raises_of_finish hexec (by rw [negEffect, if_pos hnan, if_pos hon]; rfl)
  · exact leavesInFpr_of_finish hexec (by rw [negEffect, if_pos hnan, if_neg (Bool.eq_false_iff.1 hoff)])
  · have hnan := isNaN_eq_false_of_isSubnormal hsub
    exact raises_of_finish hexec (by simp [negEffect, fpCause, hnan, hsub, hmode])
  · have hordinary : negEffect s fd (s.f .first fs) = .ok (s.setFpr fd (.holds (flipSign (s.f .first fs)))) := by
      rcases hsub with hsub | hmode
      · simp [negEffect, hnan, hsub]
      · simp [negEffect, hnan, hmode]
    exact ⟨_, leavesInFpr_of_finish hexec hordinary, fpSign_flipSign _, toNat_flipSign_mod _⟩

/-! ## The matrix of exceptions (60_exceptions.md R236) -/

/-- A FloatingPoint exception comes from the effect under the CP1 guard, not from the guard. -/
theorem effect_of_floatingPoint {i : Instr} {s : State} {e : Except Cause State} {rec : ExceptionRecord} {k : FpCause}
    (hexec : exec i s = finish s i (ifCp1Usable s e)) (h : exec i s = .fault (.exception rec))
    (hname : rec.name = .floatingPoint k) : ∃ c, e = .error c ∧ c.name = .floatingPoint k := by
  rw [hexec] at h
  obtain ⟨c, hc, hrec⟩ := (finish_fault _ _ _ _).1 h
  cases hrec
  rcases (ifCp1Usable_error _ _ _).1 hc with ⟨-, rfl⟩ | ⟨-, he⟩
  · cases hname
  · exact ⟨c, he, hname⟩

/-- Of the four only DIV.S raises DivisionByZero: the cause raised is one that its operation reports. -/
theorem divisionByZero_fpOp {op : FpOp} {s : State} {fd fs ft : FReg} {rec : ExceptionRecord}
    (h : exec (op.instr fd fs ft) s = .fault (.exception rec)) (hname : rec.name = .floatingPoint .divisionByZero) :
    op = .div := by
  obtain ⟨c, he, hc⟩ := effect_of_floatingPoint (exec_fpOp op fd fs ft s) h hname
  obtain ⟨k, hk, rfl⟩ := (fpFinish_error _ _ _ _).1 he
  cases hc
  exact FpOp.eq_div_of_divByZero (arises_of_fpRaised hk).1

theorem mayRaise_fpOp {op : FpOp} {s : State} {fd fs ft : FReg} {rec : ExceptionRecord} {k : FpCause}
    (h : exec (op.instr fd fs ft) s = .fault (.exception rec)) (hname : rec.name = .floatingPoint k) :
    mayRaise (op.instr fd fs ft) rec.name := by
  have hfour : (op.instr fd fs ft).mnemonic ∈ ["ADD.S", "SUB.S", "MUL.S", "DIV.S"] := by
    cases op <;> simp [FpOp.instr, Instr.mnemonic]
  refine .inr (.inr (.inr (.inr (.inr (.inl ⟨hfour, k, hname, ?_⟩)))))
  rintro rfl
  rw [divisionByZero_fpOp h hname]
  rfl

theorem isAccessName_of_memRead4_error {s : State} {a : Word} {c : Cause} (h : memRead4 s a = .error c) :
    isAccessName c.name := by
  obtain ⟨-, rfl⟩ | ⟨-, name, hcheck, rfl⟩ := (memRead4_error s a c).1 h
  · exact .inl rfl
  · exact (memCheck_eq_some hcheck).1

theorem isAccessName_of_memWrite4_error {s : State} {a v : Word} {c : Cause} (h : memWrite4 s a v = .error c) :
    isAccessName c.name := by
  obtain ⟨-, rfl⟩ | ⟨-, name, hcheck, rfl⟩ := (memWrite4_error s a v c).1 h
  · exact .inl rfl
  · exact (memCheck_eq_some hcheck).1

theorem not_isAccessName_floatingPoint (k : FpCause) : ¬ isAccessName (.floatingPoint k) := by simp [isAccessName]

/-- The CP1 instructions that raise FloatingPoint are the four operations and NEG.S. -/
theorem mayRaise_floatingPoint {i : Instr} {s : State} {rec : ExceptionRecord} {k : FpCause} (hi : i.isCp1 = true)
    (h : exec i s = .fault (.exception rec)) (hname : rec.name = .floatingPoint k) : mayRaise i rec.name := by
  cases i with
  | addS => exact mayRaise_fpOp (op := .add) h hname
  | subS => exact mayRaise_fpOp (op := .sub) h hname
  | mulS => exact mayRaise_fpOp (op := .mul) h hname
  | divS => exact mayRaise_fpOp (op := .div) h hname
  | negS fd fs =>
    obtain ⟨c, he, hc⟩ := effect_of_floatingPoint (exec_negS s fd fs) h hname
    rw [hname, ← hc]
    exact .inr (.inr (.inr (.inr (.inr (.inr ⟨rfl, (negEffect_error he).imp (congrArg _) (congrArg _)⟩)))))
  | movS | mfc1 | mtc1 =>
    obtain ⟨c, he, -⟩ := effect_of_floatingPoint rfl h hname
    cases he
  | lwc1 =>
    obtain ⟨c, he, hc⟩ := effect_of_floatingPoint rfl h hname
    exact absurd (hc ▸ isAccessName_of_memRead4_error ((mapRead_error _ _ _).1 he)) (not_isAccessName_floatingPoint k)
  | swc1 =>
    obtain ⟨c, he, hc⟩ := effect_of_floatingPoint rfl h hname
    exact absurd (hc ▸ isAccessName_of_memWrite4_error he) (not_isAccessName_floatingPoint k)
  | _ => cases hi

theorem mayRaise_integerOverflow {i : Instr} {s : State} (h : sumOverflows i s) : mayRaise i .integerOverflow := by
  cases i with
  | add | addi | sub => exact .inl ⟨by simp [Instr.mnemonic], rfl⟩
  | _ => exact h.elim

theorem mayRaise_coprocessorUnusable {i : Instr} (hi : i.isCp1 = true) : mayRaise i .coprocessorUnusable := by
  cases i with
  | addS | subS | mulS | divS | negS | movS | mfc1 | mtc1 | lwc1 | swc1 =>
    exact .inr (.inr (.inr (.inr (.inl ⟨by simp [Instr.mnemonic], rfl⟩))))
  | _ => cases hi

/-- A load or a store raises the exceptions of an access, TLBModified if it is a store. -/
theorem mayRaise_access {i : Instr} {kind : AccessKind} {width : Width} {base : Reg} {offset : Imm}
    {name : ExceptionName} (hi : dataAccess i = some (kind, width, base, offset)) (hname : isAccessName name)
    (hmodified : name = .tlbModified → kind = .store) : mayRaise i name := by
  cases i with
  | lb | lbu | lw | lwc1 =>
    cases hi
    exact .inr (.inr (.inl ⟨by simp [Instr.mnemonic], hname, fun h => nomatch hmodified h⟩))
  | sb | sw | swc1 => exact .inr (.inr (.inr (.inl ⟨by simp [Instr.mnemonic], hname⟩)))
  | _ => cases hi

/-- Settles O10: each cause that an instruction can raise is in its row. -/
theorem onlyTheMatrixRaises : Obligations.OnlyTheMatrixRaises := by
  unfold Obligations.OnlyTheMatrixRaises
  intro i s rec h
  obtain ⟨c, hc, hrec⟩ := exec_exception h
  have hname : rec.name = c.name := congrArg ExceptionRecord.name hrec
  cases hc with
  | overflow hsum => exact hname ▸ mayRaise_integerOverflow hsum
  | systemCall hi => exact .inr (.inl ⟨by rw [hi]; rfl, hname⟩)
  | unusable hi => exact hname ▸ mayRaise_coprocessorUnusable hi
  | floatingPoint hi k => exact mayRaise_floatingPoint hi h hname
  | access hi haccess hmodified => exact hname ▸ mayRaise_access hi haccess hmodified

end Sys2Proof.Machine
end

section
/-! PROOFS. Bitwise logic and LUI (42_logical.md R140 to R148). Each instruction writes one GPR, so that what is left is
the bits of the word it writes. The library says those of `&&&`, `|||`, `^^^` and `~~~`; the model's own part is how an
immediate becomes a word. -/

namespace Sys2Proof.Machine

open Statements

/-- A zero-extended immediate has the bits of the field in its low half and zeros above (R68). -/
theorem getLsbD_zextImm (imm : Imm) {k : Nat} (hk : k < 32) :
    (zextImm imm).getLsbD k = (decide (k < 16) && imm.getLsbD k) := by
  rw [zextImm, BitVec.getLsbD_setWidth, decide_eq_true hk, Bool.true_and]
  by_cases hlow : k < 16
  · simp [hlow]
  · simp [hlow, BitVec.getLsbD_of_ge imm k (Nat.le_of_not_lt hlow)]

/-- LUI's word is the immediate times 2^16 (R148). -/
theorem toNat_upperImm (imm : Imm) : (upperImm imm).toNat = imm.toNat * 2 ^ 16 := by
  calc (upperImm imm).toNat = imm.toNat <<< 16 ||| (0#16).toNat := BitVec.toNat_append imm 0#16
    _ = imm.toNat * 2 ^ 16 := by simp [Nat.shiftLeft_eq]

/-- An instruction whose effect is to write `v`, and no more, completes with the bits of `v`. -/
theorem writesGpr_of_bits {i : Instr} {s : State} {rd : Reg} {v : Word} {bit : Nat → Bool}
    (hexec : exec i s = finish s i (.ok (s.setX rd v))) (hbits : ∀ k < 32, v.getLsbD k = bit k) :
    ∃ v, WritesGpr i s rd v ∧ ∀ k < 32, v.getLsbD k = bit k :=
  ⟨v, leavesInGpr_of_finish hexec rfl, hbits⟩

/-- Settles O28: one clause per instruction, from the bits of its operator and of a zero-extended immediate. -/
theorem logicBitByBit : Obligations.LogicBitByBit := by
  unfold Obligations.LogicBitByBit
  intro s rd rs rt imm
  refine ⟨writesGpr_of_bits rfl fun k _ => ?and, writesGpr_of_bits rfl fun k _ => ?or,
    writesGpr_of_bits rfl fun k _ => ?xor, writesGpr_of_bits rfl fun k hk => ?nor,
    writesGpr_of_bits rfl fun k hk => ?andi, writesGpr_of_bits rfl fun k hk => ?ori,
    writesGpr_of_bits rfl fun k hk => ?xori, ⟨_, leavesInGpr_of_finish rfl rfl, toNat_upperImm imm⟩⟩
  case and => exact BitVec.getLsbD_and
  case or => exact BitVec.getLsbD_or
  case xor => exact BitVec.getLsbD_xor
  case nor => rw [BitVec.getLsbD_not, BitVec.getLsbD_or, decide_eq_true hk, Bool.true_and]
  case andi => rw [BitVec.getLsbD_and, getLsbD_zextImm imm hk, Bool.and_left_comm, Bool.and_assoc]
  case ori => rw [BitVec.getLsbD_or, getLsbD_zextImm imm hk]
  case xori => rw [BitVec.getLsbD_xor, getLsbD_zextImm imm hk]

end Sys2Proof.Machine
end

section
/-! PROOFS. Branches and jumps outside a delay slot (43_branch_jump.md R151 to R163). Each of the ten completes there
with a `branchTo`, JAL and JALR after the write of their link; what is left is the address it goes to, in integers. The
idiom B and the pseudo-instructions LA and LI (R153; 45_pseudo_instructions.md R181, R182) are then the completions of
the instructions they stand for. -/

namespace Sys2Proof.Machine

open Statements

/-! ## Targets and links -/

/-- The offset is added with its sign, modulo 2^32 (R151). -/
theorem isBranchTarget_branchTarget (pc : Word) (offset : Imm) :
    IsBranchTarget pc offset (branchTarget pc offset) := by
  have hoffset := toInt_emod_word ((offset ++ 0#2).signExtend 32)
  rw [toInt_signExtend_offset] at hoffset
  rw [IsBranchTarget, branchTarget, BitVec.toNat_add, BitVec.toNat_add, BitVec.toNat_ofNat]
  omega

/-- The field in front counts in units past the field behind. -/
theorem toNat_append_eq_add {n m : Nat} (x : BitVec n) (y : BitVec m) :
    (x ++ y).toNat = x.toNat * 2 ^ m + y.toNat := by
  rw [BitVec.toNat_append, ← Nat.shiftLeft_add_eq_or_of_lt y.isLt, Nat.shiftLeft_eq]

/-- The index times 4, in the region of the delay slot (R160). -/
theorem isJumpTarget_jumpTarget (pc : Word) (index : BitVec 26) : IsJumpTarget pc index (jumpTarget pc index) := by
  have hregion : ((pc + 4#32).extractLsb' 28 4).toNat = (pc.toNat + 4) % 2 ^ 32 / 2 ^ 28 := by
    have hlt := (pc + 4#32).isLt
    rw [BitVec.extractLsb'_toNat, Nat.shiftRight_eq_div_pow, BitVec.toNat_add, BitVec.toNat_ofNat]
    omega
  rw [IsJumpTarget, jumpTarget, toNat_append_eq_add, toNat_append_eq_add, hregion, BitVec.toNat_ofNat]
  omega

/-- The word of the link is `pc + 8` (R161). -/
theorem toNat_returnLink (pc : Word) : (returnLink pc).toNat = (pc.toNat + 8) % 2 ^ 32 := BitVec.toNat_add pc 8#32

/-! ## Transfers -/

theorem unlessInDelaySlot_of_outside {s : State} (hds : s.ds = false) (r : Result) : unlessInDelaySlot s r = r := by
  simp [unlessInDelaySlot, hds]

/-- The write of one GPR, and no more. -/
theorem gprResult_setGpr (s : State) (rd : Reg) (c : Contents) : GprResult rd c s (s.setGpr rd c) :=
  ⟨s.gprAt_setGpr_same rd c, fun r hr => s.gprAt_setGpr_ne rd r c hr, s.setGpr_fprAt rd c,
    ⟨s.setGpr_hi rd c, s.setGpr_lo rd c⟩, by simp [SameMemory], s.setGpr_params rd c⟩

section transfers
variable {i : Instr} {s : State} {target : Word} (hds : s.ds = false)
include hds

/-- An instruction that is a guarded `branchTo` transfers to its target and changes no register. -/
theorem transfersTo_of_branchTo (hexec : exec i s = unlessInDelaySlot s (.next (s.branchTo target))) :
    TransfersTo i s target :=
  ⟨s.branchTo target, hexec.trans (unlessInDelaySlot_of_outside hds _),
    ⟨fun _ => rfl, fun _ => rfl, ⟨rfl, rfl⟩, ⟨fun _ => rfl, rfl⟩, rfl⟩, rfl, rfl, rfl, rfl⟩

/-- One that first writes the return link to GPR `rd` changes that register alone. -/
theorem linksTo_of_branchTo {rd : Reg}
    (hexec : exec i s = unlessInDelaySlot s (.next ((s.setX rd (returnLink s.pc)).branchTo target))) :
    LinksTo i s rd target :=
  ⟨(s.setX rd (returnLink s.pc)).branchTo target, returnLink s.pc, hexec.trans (unlessInDelaySlot_of_outside hds _),
    gprResult_setGpr s rd _, toNat_returnLink s.pc, by simp, by simp, rfl, rfl⟩

/-- A conditional branch goes where its condition says. -/
theorem branchesIf_of_conditionalBranch {offset : Imm} {taken : Bool} {p : Prop}
    (hexec : exec i s = conditionalBranch s taken offset) (htaken : taken = true ↔ p) : BranchesIf i s offset p := by
  refine ⟨fun hp => ⟨branchTarget s.pc offset, isBranchTarget_branchTarget s.pc offset, ?_⟩, fun hp => ?_⟩
  · obtain rfl := htaken.2 hp
    exact transfersTo_of_branchTo hds hexec
  · obtain rfl := Bool.eq_false_iff.2 (mt htaken.1 hp)
    exact transfersTo_of_branchTo hds hexec

end transfers

/-! ## The statements on branches and jumps -/

/-- Settles O43: each of the six decides its condition on the operands it reads. -/
theorem conditionalBranches : Obligations.ConditionalBranches := by
  unfold Obligations.ConditionalBranches
  intro s rs rt offset hds
  have equal := branchesIf_of_conditionalBranch (i := .beq rs rt offset) hds rfl beq_iff_eq
  have unequal := branchesIf_of_conditionalBranch (i := .bne rs rt offset) hds rfl bne_iff_ne
  have compared {i : Instr} {p : Prop} [Decidable p] (hexec : exec i s = conditionalBranch s (decide p) offset) :
      BranchesIf i s offset p := branchesIf_of_conditionalBranch hds hexec decide_eq_true_iff
  exact ⟨equal, unequal, compared rfl, compared rfl, compared rfl, compared rfl⟩

/-- JALR with two registers (R162). -/
theorem exec_jalr_of_ne {rd rs : Reg} (hne : rs ≠ rd) (s : State) : exec (.jalr rd rs) s =
    unlessInDelaySlot s (.next ((s.setX rd (returnLink s.pc)).branchTo (s.x .first rs))) :=
  congrArg (unlessInDelaySlot s) (if_neg hne)

/-- JALR with one register twice (R162, D13). -/
theorem exec_jalr_same (r : Reg) (s : State) :
    exec (.jalr r r) s = unlessInDelaySlot s (.fault .jalrSameRegister) :=
  congrArg (unlessInDelaySlot s) (if_pos rfl)

/-- Settles O44: the four are a guarded `branchTo`, after the link for JAL and JALR. -/
theorem jumps : Obligations.Jumps := by
  unfold Obligations.Jumps
  intro s index rd rs hds
  exact ⟨⟨jumpTarget s.pc index, isJumpTarget_jumpTarget s.pc index, transfersTo_of_branchTo hds rfl,
      linksTo_of_branchTo hds rfl⟩,
    transfersTo_of_branchTo hds rfl, fun hne => linksTo_of_branchTo hds (exec_jalr_of_ne hne s),
    (exec_jalr_same rs s).trans (unlessInDelaySlot_of_outside hds _)⟩

/-! ## Pseudo-instructions -/

/-- Two writes of one GPR in turn leave what the second wrote. -/
theorem gprResult_trans {rd : Reg} {c d : Contents} {s t u : State} (h : GprResult rd c s t)
    (h' : GprResult rd d t u) : GprResult rd d s u := by
  obtain ⟨-, hgprs, hfprs, ⟨hhi, hlo⟩, ⟨hread, hwritten⟩, hparams⟩ := h
  obtain ⟨hrd, hgprs', hfprs', ⟨hhi', hlo'⟩, ⟨hread', hwritten'⟩, hparams'⟩ := h'
  exact ⟨hrd, fun r hr => (hgprs' r hr).trans (hgprs r hr), fun r => (hfprs' r).trans (hfprs r),
    ⟨hhi'.trans hhi, hlo'.trans hlo⟩, ⟨fun a => (hread' a).trans (hread a), hwritten'.trans hwritten⟩,
    hparams'.trans hparams⟩

/-- What is written to GPR 0 does not matter (10_state.md R21). -/
theorem gprResult_congr {rd : Reg} {c d : Contents} {s t : State} (h : GprResult rd c s t)
    (hc : rd ≠ 0#5 → c = d) : GprResult rd d s t := by
  by_cases h0 : rd = 0#5
  · simpa [GprResult, h0] using h
  · rwa [← hc h0]

/-- A register that an instruction wrote reads as the value written. -/
theorem x_of_gprResult {rd : Reg} {v : Word} {s t : State} (h : GprResult rd (.holds v) s t) (h0 : rd ≠ 0#5)
    (k : Operand) : t.x k rd = v :=
  t.x_of_holds k rd v (h.1.trans (if_neg h0))

/-- A word is its upper half, as LUI places it, with its lower half, as ORI adds it (R181). -/
theorem upperImm_or_zextImm (l : Word) : upperImm (l.extractLsb' 16 16) ||| zextImm (l.extractLsb' 0 16) = l := by
  grind [upperImm, zextImm]

/-- LUI and ORI in turn leave the label in `rt`: ORI reads what LUI has left there. -/
theorem exec_pseudoLa (s : State) (rt : Reg) (l : Word) : ∃ t u, exec (.lui rt (l.extractLsb' 16 16)) s = .next t ∧
    exec (.ori rt rt (l.extractLsb' 0 16)) t = .next u ∧ GprResult rt (.holds l) s u ∧ u.draws = s.draws + 2 := by
  obtain ⟨t, hlui, hupper, htdraws, -⟩ : WritesGpr (.lui rt (l.extractLsb' 16 16)) s rt _ :=
    leavesInGpr_of_finish rfl rfl
  obtain ⟨u, hori, hlower, hudraws, -⟩ : WritesGpr (.ori rt rt (l.extractLsb' 0 16)) t rt _ :=
    leavesInGpr_of_finish rfl rfl
  refine ⟨t, u, hlui, hori, gprResult_congr (gprResult_trans hupper hlower) fun h0 => ?_, by rw [hudraws, htdraws]⟩
  rw [x_of_gprResult hupper h0, upperImm_or_zextImm]

/-- The signed integers that have a 16-bit field are its signed readings (30_encoding.md R83). -/
theorem signedField_eq_some_iff (n : Int) (imm : Imm) : signedField n = some imm ↔ imm.toInt = n := by
  have hlow := imm.le_toInt
  have hhigh := imm.toInt_lt
  unfold signedField
  split
  · rw [Option.some_inj, ← BitVec.toInt_inj, BitVec.toInt_ofInt_eq_self (by decide) (by omega) (by omega)]
    exact eq_comm
  · simp only [reduceCtorEq, false_iff]
    omega

theorem pseudoLi_eq_some_iff (rt : Reg) (n : Int) (i : Instr) :
    pseudoLi rt n = some i ↔ ∃ imm : Imm, imm.toInt = n ∧ .addi rt 0#5 imm = i := by
  simp [pseudoLi, signedField_eq_some_iff]

/-- ADDI from GPR 0 never overflows, so that it leaves its immediate (R182). -/
theorem writesGpr_addi_zero (s : State) (rt : Reg) (imm : Imm) :
    ∃ v, WritesGpr (.addi rt 0#5 imm) s rt v ∧ v.toInt = imm.toInt := by
  have hlow := imm.le_toInt
  have hhigh := imm.toInt_lt
  have hsum : (s.x .first 0#5).toInt + imm.toInt = imm.toInt := by simp
  simpa only [hsum] using writesGpr_of_fits (exec_addi rt 0#5 imm s) (by omega)

/-- Settles O58: the instructions that each stands for, one after the other. -/
theorem pseudoInstructions : Obligations.PseudoInstructions := by
  unfold Obligations.PseudoInstructions
  refine ⟨fun s rt l => ?la, fun rt n => ?range, fun s rt n i h => ?li, fun s offset hds => ?b⟩
  case la =>
    obtain ⟨t, u, hrun⟩ := exec_pseudoLa s rt l
    exact ⟨_, _, t, u, rfl, hrun⟩
  case range => simp [pseudoLi, signedField]
  case li =>
    obtain ⟨imm, rfl, rfl⟩ := (pseudoLi_eq_some_iff rt n i).1 h
    exact writesGpr_addi_zero s rt imm
  case b => exact (conditionalBranches s 0#5 0#5 offset hds).1.1 rfl

end Sys2Proof.Machine
end

section
/-! PROOFS. The delay slot (43_branch_jump.md R150, R165), and the faults that are no exceptions (R152, R162;
20_memory.md R51, R56; 60_exceptions.md R232). `StepFault` lists once what stops a step, each fault with its
situation. -/

namespace Sys2Proof.Machine

/-! ## The record of an exception -/

/-- Whatever raises it, the record of a step's exception is that of R238 at the state before the step. -/
theorem step_exception {s : State} {rec : ExceptionRecord} (h : step s = .fault (.exception rec)) :
    ∃ word c, rec = exceptionRecord s word c := by
  obtain hfetch | ⟨i, -, hexec⟩ := (step_fault s _).1 h
  · obtain hword | ⟨w, _, -, -, hrec⟩ := (fetchInstr_error s _).1 hfetch
    · obtain ⟨name, -, hrec⟩ := fetchWord_exception hword
      exact ⟨_, _, hrec⟩
    · exact ⟨_, _, Fault.exception.inj hrec⟩
  · obtain ⟨c, -, hrec⟩ := exec_exception hexec
    exact ⟨_, c, hrec⟩

/-- Settles O23: the branch leaves control at the slot with `ds` true, from where a step can only go on to `npc` or
restart at the branch. -/
theorem delaySlotThenTarget : Obligations.DelaySlotThenTarget := by
  unfold Obligations.DelaySlotThenTarget
  intro i s t hnpc hi h
  obtain ⟨hpc, htransfer, -⟩ := controlFlowOfEveryStep i s t h
  have hds : t.ds = true := htransfer.2 hi
  rw [hnpc] at hpc
  refine ⟨hpc, fun u hu => ?_, fun rec hrec => ?_⟩
  · obtain ⟨j, -, hexec⟩ := (step_next t u).1 hu
    obtain ⟨hupc, huds⟩ := exec_inDelaySlot hds hexec
    exact ⟨hupc, hupc ▸ exec_sequential hexec huds, huds⟩
  · obtain ⟨word, c, rfl⟩ := step_exception hrec
    refine ⟨hds, hpc, ?_⟩
    simp [exceptionRecord, restartAddress, hds, hpc]

/-! ## What stops an instruction -/

/-- A control transfer in a delay slot is a fault, whatever it would do (R152). -/
theorem exec_transfer_inDelaySlot {i : Instr} {s : State} (hi : i.isControlTransfer = true) (hds : s.ds = true) :
    exec i s = .fault .controlTransferInDelaySlot := by
  obtain ⟨r, hexec, -⟩ := exec_eq_unlessInDelaySlot i s hi
  exact hexec.trans (if_pos hds)

/-- Outside a delay slot a control transfer completes, but for JALR with one register twice (R162). -/
theorem exec_transfer_outside {i : Instr} {s : State} (hi : i.isControlTransfer = true) (hds : s.ds = false) :
    (∃ t, exec i s = .next t) ∨ ∃ r, i = .jalr r r ∧ exec i s = .fault .jalrSameRegister := by
  have completes {t : State} (hexec : exec i s = unlessInDelaySlot s (.next t)) : ∃ t, exec i s = .next t :=
    ⟨t, hexec.trans (unlessInDelaySlot_of_outside hds _)⟩
  cases i with
  | beq | bne | bgez | bgtz | blez | bltz | j | jal | jr => exact .inl (completes rfl)
  | jalr rd rs =>
    by_cases hrs : rs = rd
    · obtain rfl := hrs
      exact .inr ⟨rs, rfl, (exec_jalr_same rs s).trans (unlessInDelaySlot_of_outside hds _)⟩
    · exact .inl (completes (exec_jalr_of_ne hrs s))
  | _ => cases hi

/-- Every instruction has a meaning (70_reset_and_hazards.md R272). -/
theorem exec_ne_refused (i : Instr) (s : State) (r : Refusal) : exec i s ≠ .refused r := by
  cases hi : i.isControlTransfer
  case false =>
    obtain ⟨e, hexec, -⟩ := exec_eq_finish i s hi
    exact hexec ▸ finish_refused s i e r
  case true =>
    cases hds : s.ds
    case true => simp [exec_transfer_inDelaySlot hi hds]
    case false =>
      obtain ⟨t, hexec⟩ | ⟨_, -, hexec⟩ := exec_transfer_outside hi hds <;> simp [hexec]

/-! ## What stops a step -/

/-- A fetch finds a byte that was stored to (20_memory.md R51, R56). -/
def FetchesWritten (s : State) : Prop :=
  s.pc.toNat % 4 = 0 ∧ memCheck s s.pc .word .fetch = none ∧ ∃ k < 4, s.pc.toNat + k ∈ s.written

/-- A fetch finds no byte that was stored to, but one that nothing has specified (20_memory.md R51). -/
def FetchesUnspecified (s : State) : Prop :=
  s.pc.toNat % 4 = 0 ∧ memCheck s s.pc .word .fetch = none ∧ (∀ k < 4, s.pc.toNat + k ∉ s.written) ∧
    ∃ k < 4, s.mem.read (s.pc.toNat + k) = none

/-- The faults of a step, each with its situation (60_exceptions.md R232). -/
inductive StepFault (s : State) : Fault → Prop where
  | exception (rec : ExceptionRecord) : StepFault s (.exception rec)
  | inDelaySlot {i : Instr} (fetch : fetchInstr s = .ok i) (transfer : i.isControlTransfer = true)
      (ds : s.ds = true) : StepFault s .controlTransferInDelaySlot
  | jalrSame {r : Reg} (fetch : fetchInstr s = .ok (.jalr r r)) (ds : s.ds = false) : StepFault s .jalrSameRegister
  | written (found : FetchesWritten s) : StepFault s .fetchOfWrittenLocation
  | unspecified (found : FetchesUnspecified s) : StepFault s .fetchOfUnspecifiedByte

/-- An aligned, admitted fetch of four specified bytes that were not stored to gives a word (20_memory.md R51). -/
theorem exists_fetchWord_ok {s : State} (haligned : s.pc.toNat % 4 = 0) (hcheck : memCheck s s.pc .word .fetch = none)
    (hfresh : ∀ k < 4, s.pc.toNat + k ∉ s.written) (hspecified : ∀ k < 4, s.mem.read (s.pc.toNat + k) ≠ none) :
    ∃ w, fetchWord s = .ok w := by
  have hpc := (wordAligned_iff s.pc).2 haligned
  have bytes {p : Nat → Prop} (hp : ∀ k < 4, p (s.pc.toNat + k)) : ∀ a ∈ wordAddresses s.pc, p a := by
    intro a ha
    obtain ⟨k, hk, rfl⟩ := (mem_wordAddresses_iff hpc a).1 ha
    exact hp k hk
  have hword : (s.mem.word? s.params.endian s.pc).isSome :=
    (s.mem.word?_isSome _ _).2 (bytes fun k hk => Option.isSome_iff_ne_none.2 (hspecified k hk))
  obtain ⟨w, hw⟩ := Option.isSome_iff_exists.1 hword
  exact ⟨w, (fetchWord_ok s w).2 ⟨hpc, hcheck, bytes hfresh, hw⟩⟩

/-- An instruction stops a step with an exception of its effect, or with one of the two faults of a transfer. -/
theorem stepFault_of_exec {s : State} {i : Instr} {f : Fault} (hfetch : fetchInstr s = .ok i)
    (h : exec i s = .fault f) : StepFault s f := by
  cases hi : i.isControlTransfer
  case false =>
    obtain ⟨e, hexec, -⟩ := exec_eq_finish i s hi
    obtain ⟨c, -, rfl⟩ := (finish_fault s i e f).1 (hexec ▸ h)
    exact .exception _
  case true =>
    cases hds : s.ds
    case true =>
      cases (exec_transfer_inDelaySlot hi hds).symm.trans h
      exact .inDelaySlot hfetch hi hds
    case false =>
      obtain ⟨t, hexec⟩ | ⟨r, rfl, hexec⟩ := exec_transfer_outside hi hds
      · cases hexec.symm.trans h
      · cases hexec.symm.trans h
        exact .jalrSame hfetch hds

/-- The fetch stops a step in the order of O7; past it, the word is reserved or its instruction stops the step. -/
theorem stepFault_of_step {s : State} {f : Fault} (h : step s = .fault f) : StepFault s f := by
  obtain ⟨hmisaligned, hrefused, hwritten, hunspecified⟩ := fetchStopsInOrder s
  by_cases haligned : s.pc.toNat % 4 = 0
  case neg =>
    cases (hmisaligned haligned).symm.trans h
    exact .exception _
  cases hcheck : memCheck s s.pc .word .fetch with
  | some name =>
    cases (hrefused haligned name hcheck).symm.trans h
    exact .exception _
  | none =>
    by_cases hfound : ∃ k < 4, s.pc.toNat + k ∈ s.written
    case pos =>
      cases (hwritten haligned hcheck hfound).symm.trans h
      exact .written ⟨haligned, hcheck, hfound⟩
    have hfresh : ∀ k < 4, s.pc.toNat + k ∉ s.written := by simpa using hfound
    by_cases hnone : ∃ k < 4, s.mem.read (s.pc.toNat + k) = none
    case pos =>
      cases (hunspecified haligned hcheck hfresh hnone).symm.trans h
      exact .unspecified ⟨haligned, hcheck, hfresh, hnone⟩
    obtain ⟨w, hword⟩ := exists_fetchWord_ok haligned hcheck hfresh (by simpa using hnone)
    obtain hfetch | ⟨i, hfetch, hexec⟩ := (step_fault s f).1 h
    · obtain hstop | ⟨_, _, -, -, rfl⟩ := (fetchInstr_error s f).1 hfetch
      · cases hword.symm.trans hstop
      · exact .exception _
    · exact stepFault_of_exec hfetch hexec

/-- Settles O14: a fault comes from its situation by `StepFault`; and each situation stops the fetch (O7) or the
instruction with its fault. -/
theorem modelFaultsExactly : Obligations.ModelFaultsExactly := by
  unfold Obligations.ModelFaultsExactly
  intro s
  obtain ⟨-, -, hwritten, hunspecified⟩ := fetchStopsInOrder s
  refine ⟨⟨fun h => ?_, ?_⟩, ⟨fun h => ?_, ?_⟩,
    ⟨fun h => ?_, fun ⟨haligned, hcheck, hfound⟩ => hwritten haligned hcheck hfound⟩,
    ⟨fun h => ?_, fun ⟨haligned, hcheck, hfresh, hfound⟩ => hunspecified haligned hcheck hfresh hfound⟩,
    fun r h => ?_⟩
  · cases stepFault_of_step h with
    | inDelaySlot fetch transfer ds => exact ⟨_, fetch, transfer, ds⟩
  · rintro ⟨i, hfetch, hi, hds⟩
    exact (step_fault s _).2 (.inr ⟨i, hfetch, exec_transfer_inDelaySlot hi hds⟩)
  · cases stepFault_of_step h with
    | jalrSame fetch ds => exact ⟨ds, _, fetch⟩
  · rintro ⟨hds, r, hfetch⟩
    exact (step_fault s _).2 (.inr ⟨_, hfetch, (exec_jalr_same r s).trans (unlessInDelaySlot_of_outside hds _)⟩)
  · cases stepFault_of_step h with
    | written found => exact found
  · cases stepFault_of_step h with
    | unspecified found => exact found
  · obtain ⟨i, -, hexec⟩ := (step_refused s r).1 h
    exact exec_ne_refused i s r hexec

end Sys2Proof.Machine
end

section
/-! PROOFS. Multiply, divide, and the moves from HI and LO (44_multiply_divide.md R171 to R178). The effect of each is
one write of HI and LO, or of one GPR, or both (MUL); what is left is that the words written have the exact values. A
quotient and remainder of R174 are the library's `sdiv` and `srem` of the words, whose signed readings are the
truncated ones. -/

namespace Sys2Proof.Machine

open Statements

/-! ## The frame of a write of HI and LO -/

/-- An instruction whose effect is one write of HI and LO leaves there what it writes, and changes nothing else. -/
theorem writesHiLo_of_finish {i : Instr} {s : State} {e : Except Cause State} {hi lo : SpecialReg}
    (hexec : exec i s = finish s i e) (he : e = .ok (s.setHiLo hi lo)) : WritesHiLo i s hi lo :=
  ⟨(s.setHiLo hi lo).advance, by rw [hexec, he, finish_ok],
    ⟨rfl, rfl, fun _ => rfl, fun _ => rfl, ⟨fun _ => rfl, rfl⟩, rfl⟩, rfl, rfl, rfl, rfl⟩

/-! ## Products (R171 to R173) -/

/-- The low word of an integer is the integer modulo 2^32. -/
theorem toNat_lowWord (n : Int) : ((lowWord n).toNat : Int) = n % 2 ^ 32 := by
  rw [lowWord, BitVec.toNat_ofInt]
  omega

/-- The high word of a product is the low word of its quotient by 2^32. -/
theorem highWord_eq_lowWord (p : Int) : highWord p = lowWord (p / 2 ^ 32) := by
  apply BitVec.eq_of_toNat_eq
  rw [highWord, lowWord, BitVec.extractLsb'_toNat, BitVec.toNat_ofInt, BitVec.toNat_ofInt, Nat.shiftRight_eq_div_pow]
  omega

/-- The two words of a signed 64-bit product, the high one read with its sign (R171). -/
theorem highWord_lowWord_signed {p : Int} (hlow : -2 ^ 63 ≤ p) (hhigh : p < 2 ^ 63) :
    (highWord p).toInt * 2 ^ 32 + (lowWord p).toNat = p := by
  rw [highWord_eq_lowWord, toInt_lowWord (by omega), toNat_lowWord, Int.ediv_mul_add_emod]

/-- The two words of an unsigned 64-bit product (R172). -/
theorem highWord_lowWord_unsigned {p : Nat} (hp : p < 2 ^ 64) :
    (highWord p).toNat * 2 ^ 32 + (lowWord p).toNat = p := by
  have hhigh := toNat_lowWord (p / 2 ^ 32)
  have hlow := toNat_lowWord p
  rw [highWord_eq_lowWord]
  omega

/-- Settles O31: the product of two words fits in 64 bits, so that its two words are the whole of it. -/
theorem productsAreExact : Obligations.ProductsAreExact := by
  unfold Obligations.ProductsAreExact
  intro s rs rt
  refine ⟨⟨_, _, writesHiLo_of_finish rfl rfl, highWord_lowWord_signed ?low ?high⟩,
    ⟨_, _, writesHiLo_of_finish rfl rfl, highWord_lowWord_unsigned ?unsigned⟩⟩
  case low => exact le_trans (by decide) BitVec.le_toInt_mul_toInt
  case high => exact lt_of_le_of_lt BitVec.toInt_mul_toInt_le (by decide)
  case unsigned =>
    calc (s.x .first rs).toNat * (s.x .second rt).toNat
        < 2 ^ 32 * 2 ^ 32 := Nat.mul_lt_mul'' (s.x .first rs).isLt (s.x .second rt).isLt
      _ = 2 ^ 64 := by decide

/-- Settles O32: the GPRs are those of a write of `rd` alone, discarded for GPR 0; HI and LO are made unspecified after
it in either case. -/
theorem mulWritesLowWord : Obligations.MulWritesLowWord := by
  unfold Obligations.MulWritesLowWord
  intro s rd rs rt
  obtain ⟨hrd, hgprs, hfprs, -, ⟨hread, hwritten⟩, hparams⟩ :=
    gprResult_setGpr s rd (.holds (lowWord ((s.x .first rs).toInt * (s.x .second rt).toInt)))
  exact ⟨_, _, rfl, toNat_lowWord _, hrd, hgprs, rfl, rfl, hfprs, ⟨hread, hwritten⟩, hparams, by simp,
    by simp [AdvancesInOrder]⟩

/-! ## Signed division (R174, R175) -/

/-- The quotient fits in a signed word, -2^31 by -1 aside. -/
theorem toInt_sdiv_of_fits {a b : Word} (h : ¬ (a.toInt = -2 ^ 31 ∧ b.toInt = -1)) :
    (a.sdiv b).toInt = a.toInt.tdiv b.toInt := by
  refine BitVec.toInt_sdiv_of_ne_or_ne a b ?_
  by_contra! hmin
  obtain ⟨rfl, rfl⟩ := hmin
  exact h (by decide)

theorem lowWord_toInt (a : Word) : lowWord a.toInt = a := BitVec.ofInt_toInt

theorem lowWord_tdiv {a b : Word} (h : ¬ (a.toInt = -2 ^ 31 ∧ b.toInt = -1)) :
    lowWord (a.toInt.tdiv b.toInt) = a.sdiv b := by
  rw [← toInt_sdiv_of_fits h, lowWord_toInt]

theorem lowWord_sub_tdiv_mul (a b : Word) : lowWord (a.toInt - a.toInt.tdiv b.toInt * b.toInt) = a.srem b := by
  rw [Int.mul_comm, ← Int.tmod_def, ← BitVec.toInt_srem, lowWord_toInt]

/-- Outside the two cases of R175, DIV leaves the truncated quotient and its remainder. -/
theorem divideSigned_of_divides (s : State) {a b : Word} (hb : b.toInt ≠ 0)
    (h : ¬ (a.toInt = -2 ^ 31 ∧ b.toInt = -1)) :
    divideSigned s a.toInt b.toInt = s.setHiLo (.holds (a.srem b)) (.holds (a.sdiv b)) := by
  rw [← lowWord_sub_tdiv_mul, ← lowWord_tdiv h, divideSigned, if_neg hb, if_neg h]

theorem divideSigned_of_unspecified (s : State) {a b : Int} (h : b = 0 ∨ (a = -2 ^ 31 ∧ b = -1)) :
    divideSigned s a b = s.unspecifyHiLo := by
  rcases h with rfl | ⟨rfl, rfl⟩
  · exact if_pos rfl
  · rfl

/-- The law of R174: dividend, quotient and remainder. -/
theorem toInt_sdiv_mul_add_srem {a b : Word} (h : ¬ (a.toInt = -2 ^ 31 ∧ b.toInt = -1)) :
    a.toInt = (a.sdiv b).toInt * b.toInt + (a.srem b).toInt := by
  rw [toInt_sdiv_of_fits h, BitVec.toInt_srem, Int.tdiv_mul_add_tmod]

/-- A truncated remainder is smaller than the divisor. -/
theorem abs_tmod_lt (a : Int) {b : Int} (hb : b ≠ 0) : |a.tmod b| < |b| := by
  rw [Int.abs_eq_natAbs, Int.abs_eq_natAbs, Int.natAbs_tmod]
  exact_mod_cast Nat.mod_lt _ (Int.natAbs_pos.2 hb)

/-- A truncated remainder is zero or has the sign of the dividend. -/
theorem tmod_eq_zero_or_pos_iff (a b : Int) : a.tmod b = 0 ∨ (0 < a.tmod b ↔ 0 < a) := by
  by_cases hdvd : b ∣ a
  · exact .inl (Int.tmod_eq_zero_of_dvd hdvd)
  · have hsign := Int.sign_tmod a b
    rw [if_neg hdvd] at hsign
    rw [← Int.sign_eq_one_iff_pos, ← Int.sign_eq_one_iff_pos, hsign]
    exact .inr Iff.rfl

/-- Settles O33: the remainder is the truncated one, whatever the operands, and the quotient where it fits. -/
theorem signedDivisionLaw : Obligations.SignedDivisionLaw := by
  unfold Obligations.SignedDivisionLaw
  intro s rs rt
  refine ⟨fun hb hfits => ⟨_, _, writesHiLo_of_finish rfl (congrArg _ (divideSigned_of_divides s hb hfits)),
      toInt_sdiv_mul_add_srem hfits, ?bound, ?sign⟩,
    fun h => writesHiLo_of_finish rfl (congrArg _ (divideSigned_of_unspecified s h))⟩
  case bound =>
    rw [BitVec.toInt_srem]
    exact abs_tmod_lt _ hb
  case sign =>
    rw [BitVec.toInt_srem]
    exact tmod_eq_zero_or_pos_iff _ _

/-! ## Unsigned division (R176) -/

theorem ofNat_div_toNat (a b : Word) : BitVec.ofNat 32 (a.toNat / b.toNat) = a / b := by
  rw [← BitVec.toNat_udiv, BitVec.ofNat_toNat, BitVec.setWidth_eq]

theorem ofNat_mod_toNat (a b : Word) : BitVec.ofNat 32 (a.toNat % b.toNat) = a % b := by
  rw [← BitVec.toNat_umod, BitVec.ofNat_toNat, BitVec.setWidth_eq]

/-- With a divisor that is not zero, DIVU leaves the quotient and the remainder of the words. -/
theorem divideUnsigned_of_divides (s : State) {a b : Word} (hb : b.toNat ≠ 0) :
    divideUnsigned s a.toNat b.toNat = s.setHiLo (.holds (a % b)) (.holds (a / b)) := by
  rw [divideUnsigned, if_neg hb, ofNat_mod_toNat, ofNat_div_toNat]

/-- Settles O34: the quotient and the remainder of two words are words. -/
theorem unsignedDivisionLaw : Obligations.UnsignedDivisionLaw := by
  unfold Obligations.UnsignedDivisionLaw
  intro s rs rt
  refine ⟨fun hb => ⟨_, _, writesHiLo_of_finish rfl (congrArg _ (divideUnsigned_of_divides s hb)), ?law, ?bound⟩,
    fun hzero => writesHiLo_of_finish rfl (congrArg _ (if_pos hzero))⟩
  case law => rw [BitVec.toNat_udiv, BitVec.toNat_umod, Nat.div_add_mod']
  case bound =>
    rw [BitVec.toNat_umod]
    exact Nat.mod_lt _ (Nat.pos_of_ne_zero hb)

/-! ## Moves from HI and LO (R177, R178) -/

/-- Settles O35: the GPR gets the contents of HI or LO, a value or none. -/
theorem moveFromHiAndLo : Obligations.MoveFromHiAndLo := by
  unfold Obligations.MoveFromHiAndLo
  intro s rd
  have mfhi {c : Contents} (h : s.hi.contents = c) : LeavesInGpr (.mfhi rd) s rd c :=
    h ▸ leavesInGpr_of_finish rfl rfl
  have mflo {c : Contents} (h : s.lo.contents = c) : LeavesInGpr (.mflo rd) s rd c :=
    h ▸ leavesInGpr_of_finish rfl rfl
  exact ⟨fun v h => mfhi (congrArg SpecialReg.contents h), fun v h => mflo (congrArg SpecialReg.contents h),
    fun h => mfhi (congrArg SpecialReg.contents h), fun h => mflo (congrArg SpecialReg.contents h)⟩

end Sys2Proof.Machine
end

section
/-! PROOFS. Loads and stores that complete (46_load_store.md R187 to R193). A load is one write of a register, with the
byte or word that memory holds; a store changes memory and WRITTEN alone. That the four bytes at an address hold a word
in the order ENDIAN is said in the model's own bytes once (`holdsWord_iff`), for the word loads and stores alike. -/

namespace Sys2Proof.Machine

open Statements

/-! ## Byte loads -/

/-- LB at an address that MemCheck admits. -/
theorem leavesInGpr_lb {s : State} {rt base : Reg} {offset : Imm}
    (hcheck : memCheck s (effectiveAddress (s.x .first base) offset) .byte .load = none) :
    LeavesInGpr (.lb rt offset base) s rt
      (loaded sextByte (s.mem.read (effectiveAddress (s.x .first base) offset).toNat)) :=
  leavesInGpr_of_finish rfl ((mapRead_ok _ _ _).2 ⟨_, (memRead1_ok s _ _).2 ⟨hcheck, rfl⟩, rfl⟩)

theorem toInt_sextByte (b : Byte) : (sextByte b).toInt = b.toInt :=
  BitVec.toInt_signExtend_of_le (by decide)

/-- Settles O37: the two load the byte that memory holds, or nothing, and extend it. -/
theorem byteLoads : Obligations.ByteLoads := by
  unfold Obligations.ByteLoads
  intro s rt base offset hcheck
  have hlb := leavesInGpr_lb (rt := rt) hcheck
  have hlbu := leavesInGpr_lbu (rt := rt) hcheck
  refine ⟨fun b hread => ?_, fun hread => ?_⟩
  · rw [hread] at hlb hlbu
    exact ⟨⟨_, hlb, toInt_sextByte b⟩, ⟨_, hlbu, toNat_zextByte b⟩⟩
  · rw [hread] at hlb hlbu
    exact ⟨hlb, hlbu⟩

/-! ## Word loads -/

/-- Four bytes hold a word when each is the word's byte for its place (20_memory.md R43). -/
theorem holdsWord_iff (s : State) (a : Nat) (v : Word) :
    HoldsWord s a v ↔ ∀ k : Fin 4, s.mem.read (a + k) = some (wordByte s.params.endian v k) := by
  constructor
  · intro h k
    obtain ⟨b, hread, hb⟩ := h k k.isLt
    rw [hread, BitVec.eq_of_toNat_eq (hb.trans (toNat_wordByte _ v k).symm)]
  · exact fun h k hk => ⟨_, h ⟨k, hk⟩, toNat_wordByte _ v ⟨k, hk⟩⟩

/-- The word read at an aligned address is the one that its four bytes hold. -/
theorem word?_of_holdsWord {s : State} {a v : Word} (haligned : wordAligned a = true) (h : HoldsWord s a.toNat v) :
    s.mem.word? s.params.endian a = some v := by
  obtain ⟨e1, e2, e3⟩ := toNat_add_of_wordAligned haligned
  have hread := (holdsWord_iff s a.toNat v).1 h
  rw [s.mem.word?_of_read _ a _ _ _ _ (hread 0) (e1 ▸ hread 1) (e2 ▸ hread 2) (e3 ▸ hread 3), assembleWord_wordBytes]

/-- LWC1 at an aligned address that MemCheck admits, with CP1_USABLE true. -/
theorem leavesInFpr_lwc1 {s : State} {ft : FReg} {base : Reg} {offset : Imm} (husable : s.params.cp1Usable = true)
    (haligned : wordAligned (effectiveAddress (s.x .first base) offset) = true)
    (hcheck : memCheck s (effectiveAddress (s.x .first base) offset) .word .load = none) :
    LeavesInFpr (.lwc1 ft offset base) s ft
      (loaded id (s.mem.word? s.params.endian (effectiveAddress (s.x .first base) offset))) :=
  leavesInFpr_of_finish rfl ((ifCp1Usable_ok _ _ _).2
    ⟨husable, (mapRead_ok _ _ _).2 ⟨_, (memRead4_ok s _ _).2 ⟨haligned, hcheck, rfl⟩, rfl⟩⟩)

/-- Settles O38: the two load the word that the four bytes hold, or nothing where one of them is unspecified. -/
theorem wordLoads : Obligations.WordLoads := by
  unfold Obligations.WordLoads
  intro s rt base ft offset haligned hcheck
  rw [← wordAligned_iff] at haligned
  have hlw := leavesInGpr_lw (rt := rt) haligned hcheck
  have hlwc1 husable := leavesInFpr_lwc1 (ft := ft) husable haligned hcheck
  refine ⟨fun v hholds => ?_, ?_⟩
  · rw [word?_of_holdsWord haligned hholds] at hlw hlwc1
    exact ⟨hlw, hlwc1⟩
  · rintro ⟨k, hk, hread⟩
    rw [s.mem.word?_none _ _ _ ((mem_wordAddresses_iff haligned _).2 ⟨k, hk, rfl⟩) hread] at hlw hlwc1
    exact ⟨hlw, hlwc1⟩

/-! ## Stores -/

/-- An instruction whose effect is on memory and WRITTEN alone, within the `n` bytes from `a` on, stores there. -/
theorem storesAt_of_finish {i : Instr} {s : State} {e : Except Cause State} {a : Word} {n : Nat} {P : State → Prop}
    {mem : Memory} {written : List Nat} (hexec : exec i s = finish s i e)
    (he : e = .ok { s with mem := mem, written := written })
    (hP : P { s with mem := mem, written := written }.advance)
    (hread : ∀ c, c < a.toNat ∨ a.toNat + n ≤ c → mem.read c = s.mem.read c)
    (hwritten : ∀ c, c ∈ written ↔ c ∈ s.written ∨ (a.toNat ≤ c ∧ c < a.toNat + n)) : StoresAt i s a n P :=
  ⟨_, by rw [hexec, he, finish_ok], hP, hread, hwritten, fun _ => rfl, fun _ => rfl, ⟨rfl, rfl⟩, rfl, rfl,
    rfl, rfl, rfl⟩

theorem toNat_lowByte (v : Word) : (lowByte v).toNat = v.toNat % 256 := by
  rw [lowByte, BitVec.extractLsb'_toNat, Nat.shiftRight_zero]

/-- Settles O39: the effect of SB is one byte written, at its effective address. -/
theorem byteStores : Obligations.ByteStores := by
  unfold Obligations.ByteStores
  intro s rt base offset hcheck
  refine storesAt_of_finish rfl ((memWrite1_ok s _ _ _).2 ⟨hcheck, rfl⟩) ?byte ?outside ?written
  case byte => exact ⟨_, Memory.read_write_same _ _ _, toNat_lowByte _⟩
  case outside =>
    intro c hc
    exact Memory.read_write_ne _ _ _ _ (by omega)
  case written =>
    intro c
    rw [mem_insertAddress, or_comm]
    exact or_congr_right (by omega)

/-- A word store leaves its word at its four bytes. -/
theorem holdsWord_storeBytes (s : State) {a : Word} (v : Word) (haligned : wordAligned a = true) :
    HoldsWord (s.storeBytes a v) a.toNat v :=
  (holdsWord_iff _ _ _).2 (s.storeBytes_read_byte v haligned)

/-- A word store leaves every other byte as it was. -/
theorem State.storeBytes_read_outside (s : State) {a : Word} (v : Word) (haligned : wordAligned a = true) {c : Nat}
    (hc : c < a.toNat ∨ a.toNat + 4 ≤ c) : (s.storeBytes a v).mem.read c = s.mem.read c := by
  obtain ⟨e1, e2, e3⟩ := toNat_add_of_wordAligned haligned
  rw [State.storeBytes_read, if_neg (by omega), if_neg (by omega), if_neg (by omega), if_neg (by omega)]

/-- The four addresses of a word store enter WRITTEN (20_memory.md R50). -/
theorem State.mem_storeBytes_written_aligned (s : State) {a : Word} (v : Word) (haligned : wordAligned a = true)
    (c : Nat) : c ∈ (s.storeBytes a v).written ↔ c ∈ s.written ∨ (a.toNat ≤ c ∧ c < a.toNat + 4) := by
  rw [State.mem_storeBytes_written, wordAddresses_aligned a haligned, or_comm]
  simp only [List.mem_cons, List.not_mem_nil, or_false]
  exact or_congr_right (by omega)

/-- An instruction whose effect is a word store that is not refused stores its word. -/
theorem storesAt_of_memWrite4 {i : Instr} {s : State} {e : Except Cause State} {a v : Word}
    (hexec : exec i s = finish s i e) (he : e = memWrite4 s a v) (haligned : wordAligned a = true)
    (hcheck : memCheck s a .word .store = none) : StoresAt i s a 4 fun t => HoldsWord t a.toNat v :=
  storesAt_of_finish hexec (he.trans ((memWrite4_ok s _ a v).2 ⟨haligned, hcheck, rfl⟩))
    (holdsWord_storeBytes s v haligned) (fun _ => s.storeBytes_read_outside v haligned)
    (s.mem_storeBytes_written_aligned v haligned)

/-- Settles O40: the effect of SW, and of SWC1 under the CP1 guard, is a word store. -/
theorem wordStores : Obligations.WordStores := by
  unfold Obligations.WordStores
  intro s rt base ft offset haligned hcheck
  rw [← wordAligned_iff] at haligned
  exact ⟨storesAt_of_memWrite4 rfl rfl haligned hcheck,
    fun husable => storesAt_of_memWrite4 rfl (ifCp1Usable_of_usable husable _) haligned hcheck⟩

end Sys2Proof.Machine
end


section
/-! PROOFS. Conditional moves (47_conditional_move.md R200 to R202). The two outcomes of the test are stated once, for
both instructions: the move is one write of a register, and a register that gets back what it holds is the same
state, so no move is a write too. -/

namespace Sys2Proof.Machine

open Statements

/-- A GPR that is given what it holds leaves the state as it was. -/
theorem State.setGpr_gprAt_self (s : State) (r : Reg) : s.setGpr r (s.gprAt r) = s := by
  unfold State.setGpr State.gprAt
  split
  · rfl
  · rw [Vector.set_getElem_self]

section conditionalMove

variable {i : Instr} {s : State} {rd rs : Reg} {p : Prop} [Decidable p]

/-- A conditional move whose test holds leaves in `rd` what `rs` holds, a value or none. -/
theorem leavesInGpr_of_moves (hexec : exec i s = finish s i (.ok (if p then s.setGpr rd (s.gprAt rs) else s)))
    (htest : p) : LeavesInGpr i s rd (s.gprAt rs) :=
  leavesInGpr_of_finish hexec (congrArg _ (if_pos htest))

/-- A conditional move whose test fails leaves in `rd` what it held. -/
theorem leavesInGpr_of_keeps (hexec : exec i s = finish s i (.ok (if p then s.setGpr rd (s.gprAt rs) else s)))
    (htest : ¬ p) : LeavesInGpr i s rd (s.gprAt rd) :=
  leavesInGpr_of_finish hexec (congrArg _ ((if_neg htest).trans (s.setGpr_gprAt_self rd).symm))

end conditionalMove

/-- Settles O30: of the two tests of x[rt], each the negation of the other, one moves and the other keeps `rd`. -/
theorem conditionalMoves : Obligations.ConditionalMoves := by
  unfold Obligations.ConditionalMoves
  intro s rd rs rt
  exact ⟨fun hnonzero => ⟨leavesInGpr_of_moves rfl hnonzero, leavesInGpr_of_keeps (rs := rs) rfl hnonzero⟩,
    fun hzero => ⟨leavesInGpr_of_moves rfl hzero, leavesInGpr_of_keeps (rs := rs) rfl (not_not_intro hzero)⟩⟩

end Sys2Proof.Machine
end

section
/-! PROOFS. Shifts (48_shift.md R205 to R211). Each of the six is one write of a GPR, the fixed and the variable form
with one effect at two amounts; what is left is the exact value of the shifted word. -/

namespace Sys2Proof.Machine

open Statements

/-! ## The shifted word (R205) -/

theorem toNat_shl (v : Word) (n : BitVec 5) : (shl v n).toNat = v.toNat * 2 ^ n.toNat % 2 ^ 32 := by
  rw [shl, BitVec.toNat_shiftLeft, Nat.shiftLeft_eq]

theorem toNat_shrl (v : Word) (n : BitVec 5) : (shrl v n).toNat = v.toNat / 2 ^ n.toNat := by
  rw [shrl, BitVec.toNat_ushiftRight, Nat.shiftRight_eq_div_pow]

/-- Division by a power of two rounds down, for a negative value too. -/
theorem toInt_shra (v : Word) (n : BitVec 5) : (shra v n).toInt = v.toInt / 2 ^ n.toNat := by
  rw [shra, BitVec.toInt_sshiftRight, Int.shiftRight_eq_div_pow]
  norm_cast

/-- The low five bits of a register are its value modulo 32. -/
theorem toNat_shiftAmount (v : Word) : (shiftAmount v).toNat = v.toNat % 32 := by
  rw [shiftAmount, BitVec.extractLsb'_toNat, Nat.shiftRight_zero]

/-! ## The six instructions (R206 to R211) -/

section shifts
variable {i : Instr} {s : State} {rd rt : Reg} {n : BitVec 5}

theorem writesGpr_of_shl (hexec : exec i s = finish s i (.ok (s.setX rd (shl (s.x .second rt) n)))) :
    ∃ v, WritesGpr i s rd v ∧ v.toNat = (s.x .second rt).toNat * 2 ^ n.toNat % 2 ^ 32 :=
  ⟨_, leavesInGpr_of_finish hexec rfl, toNat_shl _ n⟩

theorem writesGpr_of_shrl (hexec : exec i s = finish s i (.ok (s.setX rd (shrl (s.x .second rt) n)))) :
    ∃ v, WritesGpr i s rd v ∧ v.toNat = (s.x .second rt).toNat / 2 ^ n.toNat :=
  ⟨_, leavesInGpr_of_finish hexec rfl, toNat_shrl _ n⟩

theorem writesGpr_of_shra (hexec : exec i s = finish s i (.ok (s.setX rd (shra (s.x .second rt) n)))) :
    ∃ v, WritesGpr i s rd v ∧ v.toInt = (s.x .second rt).toInt / 2 ^ n.toNat :=
  ⟨_, leavesInGpr_of_finish hexec rfl, toInt_shra _ n⟩

end shifts

/-- Settles O29: three shifts, each at the amount sa and at the amount that x[rs] gives. -/
theorem shiftsAreArithmetic : Obligations.ShiftsAreArithmetic := by
  unfold Obligations.ShiftsAreArithmetic
  intro s rd rs rt sa
  rw [← toNat_shiftAmount (s.x .first rs)]
  exact ⟨writesGpr_of_shl rfl, writesGpr_of_shrl rfl, writesGpr_of_shra rfl,
    writesGpr_of_shl rfl, writesGpr_of_shrl rfl, writesGpr_of_shra rfl⟩

end Sys2Proof.Machine
end

section
/-! PROOFS. Who raises what, and with which record (60_exceptions.md R223, R224, R229, R238). `EffectCause` lists the
causes of an instruction, so that a name leads back to the one situation that gives it; `StepCause` adds the two that
a fetch has. -/

namespace Sys2Proof.Machine

open Statements

/-! ## The situation behind a name (R223, R224, R229) -/

theorem ne_of_isAccessName {name : ExceptionName} (h : isAccessName name) :
    name ≠ .integerOverflow ∧ name ≠ .systemCall ∧ name ≠ .coprocessorUnusable := by
  rcases h with rfl | rfl | rfl | rfl | rfl | rfl <;> simp

/-- Each of the three names leads back to its situation. -/
theorem EffectCause.situation {i : Instr} {s : State} {c : Cause} (h : EffectCause i s c) :
    (c.name = .integerOverflow → sumOverflows i s) ∧ (c.name = .systemCall → ∃ code, i = .syscall code) ∧
      (c.name = .coprocessorUnusable → i.isCp1 = true ∧ s.params.cp1Usable = false) := by
  cases h with
  | overflow hsum => exact ⟨fun _ => hsum, nofun, nofun⟩
  | systemCall hi => exact ⟨nofun, fun _ => ⟨_, hi⟩, nofun⟩
  | unusable hi hs => exact ⟨nofun, nofun, fun _ => ⟨hi, hs⟩⟩
  | floatingPoint => exact ⟨nofun, nofun, nofun⟩
  | access _ haccess _ =>
    obtain ⟨hoverflow, hsyscall, hunusable⟩ := ne_of_isAccessName haccess
    exact ⟨(absurd · hoverflow), (absurd · hsyscall), (absurd · hunusable)⟩

theorem exec_exception_situation {i : Instr} {s : State} {rec : ExceptionRecord}
    (h : exec i s = .fault (.exception rec)) :
    (rec.name = .integerOverflow → sumOverflows i s) ∧ (rec.name = .systemCall → ∃ code, i = .syscall code) ∧
      (rec.name = .coprocessorUnusable → i.isCp1 = true ∧ s.params.cp1Usable = false) := by
  obtain ⟨c, hc, rfl⟩ := exec_exception h
  exact hc.situation

/-- ADD, ADDI and SUB trap when their exact result does not fit (R223). -/
theorem raises_of_sumOverflows {i : Instr} {s : State} (h : sumOverflows i s) : Raises i s .integerOverflow := by
  cases i with
  | add | sub => exact raises_of_overflows rfl h
  | addi rt rs imm => exact raises_of_overflows (exec_addi rt rs imm s) h
  | _ => exact h.elim

/-- Settles O11: only the causes of ADD, ADDI and SUB bear the name. -/
theorem integerOverflowExactly : Obligations.IntegerOverflowExactly := by
  unfold Obligations.IntegerOverflowExactly
  exact fun i s => ⟨raises_of_sumOverflows, fun rec h => (exec_exception_situation h).1⟩

/-- The ten CP1 instructions by their names (R229). -/
theorem isCp1_iff (i : Instr) : i.isCp1 = true ↔
    i.mnemonic ∈ ["ADD.S", "SUB.S", "MUL.S", "DIV.S", "MOV.S", "NEG.S", "MFC1", "MTC1", "LWC1", "SWC1"] := by
  cases i <;> simp [Instr.isCp1, Instr.mnemonic]

/-- Each of the ten is guarded by CP1_USABLE before it reads an operand (10_state.md R26 step 4). -/
theorem raisesUnusable_of_isCp1 {i : Instr} {s : State} (hi : i.isCp1 = true) (hs : s.params.cp1Usable = false) :
    RaisesUnusable i s := by
  cases i with
  | addS | subS | mulS | divS | movS | negS | mfc1 | mtc1 | lwc1 | swc1 => exact raisesUnusable_of_finish rfl hs
  | _ => cases hi

/-- Settles O12: the CP1 guard raises it, and nothing else does. -/
theorem coprocessorUnusableExactly : Obligations.CoprocessorUnusableExactly := by
  unfold Obligations.CoprocessorUnusableExactly
  exact ⟨isCp1_iff, fun i s => raisesUnusable_of_isCp1, fun i s rec h => (exec_exception_situation h).2.2⟩

/-- The code field is bits 25:6 of a word. -/
theorem toNat_codeOf (w : Word) : (codeOf w).toNat = w.toNat / 2 ^ 6 % 2 ^ 20 := by
  rw [codeOf, BitVec.extractLsb'_toNat, Nat.shiftRight_eq_div_pow]

/-- Settles O13: SYSCALL is its exception, its word keeps the code, and no other cause bears the name. -/
theorem syscallAlwaysStops : Obligations.SyscallAlwaysStops := by
  unfold Obligations.SyscallAlwaysStops
  refine ⟨fun code s => rfl, fun code => ?_, fun i s rec h => (exec_exception_situation h).2.1⟩
  rw [← toNat_codeOf, codeOf_encode_syscall]

/-! ## The info of a cause (R238) -/

/-- Only an access gives an access's name, and its cause has the kind and the address of the access. -/
theorem EffectCause.access_info {i : Instr} {s : State} {c : Cause} (h : EffectCause i s c)
    (hname : isAccessName c.name) : ∃ kind width base offset, dataAccess i = some (kind, width, base, offset) ∧
      c.kind = some kind ∧ c.badaddr = some (effectiveAddress (s.x .first base) offset) := by
  cases h with
  | access hi => exact ⟨_, _, _, _, hi, rfl, rfl⟩
  | overflow | systemCall | unusable | floatingPoint =>
    simp [isAccessName, plainCause, coprocessorUnusable, fpCause] at hname

/-- The word that a step has fetched when it raises, and the cause. -/
inductive StepCause (s : State) : Option Word → Cause → Prop where
  | fetch {f : Fault} {name : ExceptionName} (hword : fetchWord s = .error f) (hname : isAccessName name) :
      StepCause s none (accessCause name .fetch s.pc)
  | reserved {w : Word} (hword : fetchWord s = .ok w) : StepCause s (some w) (plainCause .reservedInstruction)
  | effect {w : Word} {i : Instr} {c : Cause} (hword : fetchWord s = .ok w) (hfetch : fetchInstr s = .ok i)
      (hc : EffectCause i s c) : StepCause s (some w) c

/-- A step raises in its fetch, in its decoding, or in its instruction, whose word is the one that was fetched. -/
theorem exists_stepCause {s : State} {rec : ExceptionRecord} (h : step s = .fault (.exception rec)) :
    ∃ word c, StepCause s word c ∧ rec = exceptionRecord s word c := by
  obtain hfault | ⟨i, hfetch, hexec⟩ := (step_fault s _).1 h
  · obtain hword | ⟨w, _, hword, -, hrec⟩ := (fetchInstr_error s _).1 hfault
    · obtain ⟨name, hname, hrec⟩ := fetchWord_exception hword
      exact ⟨_, _, .fetch hword hname, hrec⟩
    · exact ⟨_, _, .reserved hword, Fault.exception.inj hrec⟩
  · obtain ⟨w, hword, hdecode⟩ := (fetchInstr_ok s i).1 hfetch
    obtain ⟨c, hc, hrec⟩ := exec_exception hexec
    rw [encodeOfDecode w i hdecode] at hrec
    exact ⟨_, c, .effect hword hfetch hc, hrec⟩

section stepCause
variable {s : State} {word : Option Word} {c : Cause}

/-- The record has the word exactly when the fetch succeeded. -/
theorem StepCause.word_eq_some_iff (h : StepCause s word c) (w : Word) : word = some w ↔ fetchWord s = .ok w := by
  cases h with
  | fetch hword => simp [hword]
  | reserved hword | effect hword => simp [hword]

/-- The exceptions of an access have the kind and the address of the fetch, or of the load or store. -/
theorem StepCause.access_info (h : StepCause s word c) (hname : isAccessName c.name) :
    (word = none ∧ c.kind = some .fetch ∧ c.badaddr = some s.pc) ∨
      ∃ i kind width base offset, fetchInstr s = .ok i ∧ dataAccess i = some (kind, width, base, offset) ∧
        c.kind = some kind ∧ c.badaddr = some (effectiveAddress (s.x .first base) offset) := by
  cases h with
  | fetch => exact .inl ⟨rfl, rfl, rfl⟩
  | reserved => simp [isAccessName, plainCause] at hname
  | effect _ hfetch hc =>
    obtain ⟨kind, width, base, offset, hinfo⟩ := hc.access_info hname
    exact .inr ⟨_, kind, width, base, offset, hfetch, hinfo⟩

/-- Every other exception has neither. -/
theorem StepCause.no_access_info (h : StepCause s word c) (hname : ¬ isAccessName c.name) :
    c.kind = none ∧ c.badaddr = none := by
  cases h with
  | fetch _ haccess => exact absurd haccess hname
  | reserved => exact ⟨rfl, rfl⟩
  | effect _ _ hc =>
    cases hc with
    | overflow | systemCall | unusable | floatingPoint => exact ⟨rfl, rfl⟩
    | access _ haccess _ => exact absurd haccess hname

/-- The coprocessor number is that of CoprocessorUnusable, 1. -/
theorem StepCause.cop_eq (h : StepCause s word c) :
    c.cop = if c.name = .coprocessorUnusable then some 1 else none := by
  cases h with
  | fetch _ haccess => exact (if_neg (ne_of_isAccessName haccess).2.2).symm
  | reserved => rfl
  | effect _ _ hc =>
    cases hc with
    | overflow | systemCall | unusable | floatingPoint => rfl
    | access _ haccess _ => exact (if_neg (ne_of_isAccessName haccess).2.2).symm

end stepCause

/-- Settles O9: `pc`, `ds` and `restart` are those of any record at the state, the rest is that of the cause. -/
theorem exceptionRecordIsExact : Obligations.ExceptionRecordIsExact := by
  unfold Obligations.ExceptionRecordIsExact
  intro s rec h
  obtain ⟨word, c, hc, rfl⟩ := exists_stepCause h
  refine ⟨rfl, rfl, fun hds => ?outside, fun hds => ?inSlot, hc.word_eq_some_iff, hc.access_info, hc.no_access_info,
    hc.cop_eq⟩
  case outside => simp [exceptionRecord, restartAddress, hds]
  case inSlot => simp [exceptionRecord, restartAddress, hds]

end Sys2Proof.Machine
end

section
/-! PROOFS. Completion without enables (41_floating_point.md R122, R125; 60_exceptions.md R231): with FP_ENABLES empty
UnimplementedOperation is the one cause that can raise, and `ieee`, or operands and a result that are not subnormal
or tiny, keep it from arising. -/

namespace Sys2Proof.Machine

open Statements

/-- With FP_ENABLES empty no other cause is enabled. -/
theorem eq_unimplemented_of_enabled {p : Params} {c : FpCause} (h : Enabled p c) (hp : p.fpEnables = FpEnables.none) :
    c = .unimplementedOperation := by
  cases c with
  | unimplementedOperation => rfl
  | invalidOperation | divisionByZero | overflow | underflow | inexact =>
    simp [Enabled, hp, FpEnables.none] at h

/-- With FP_ENABLES empty an operation raises nothing where UnimplementedOperation does not arise. -/
theorem fpRaised_eq_none_of_no_enables {p : Params} {f : FpFacts} (hp : p.fpEnables = FpEnables.none)
    (hf : ¬ Arises p f .unimplementedOperation) : fpRaised p f = none := by
  refine fpRaised_eq_none ?_
  rintro c ⟨harises, henabled⟩
  obtain rfl := eq_unimplemented_of_enabled henabled hp
  exact hf harises

/-- UnimplementedOperation arises for a subnormal operand and for a tiny exact result, under `unimplemented` (R125). -/
theorem arises_unimplemented_run_iff (op : FpOp) (p : Params) (mode : RoundingMode) (a b : Word) :
    Arises p (op.run mode a b).2 .unimplementedOperation ↔
      p.fpSubnormal = .unimplemented ∧
        ((isSubnormal a = true ∨ isSubnormal b = true) ∨ (op.finiteOn a b ∧ IsTiny (op.exact a b))) := by
  rw [Arises, op.subnormalOperand_iff, op.tiny_iff]

/-- What a result leaves in its register is its pattern, or some NaN. -/
theorem FpResult.contents_cases (r : FpResult) :
    (∃ w, r = .bits w ∧ r.contents = .holds w) ∨ (r = .someNaN ∧ r.contents = .someNaN) := by
  cases r with
  | bits w => exact .inl ⟨w, rfl, rfl⟩
  | someNaN => exact .inr ⟨rfl, rfl⟩

/-- Settles O53: nothing raises, so FPFinish writes the result. -/
theorem fpCompletesWithoutEnables : Obligations.FpCompletesWithoutEnables := by
  unfold Obligations.FpCompletesWithoutEnables
  intro op s fd fs ft husable hnone hsubnormal
  have hnot : ¬ Arises s.params (op.run s.params.fpRm (s.f .first fs) (s.f .second ft)).2 .unimplementedOperation := by
    rw [arises_unimplemented_run_iff]
    rintro ⟨hmode, harises⟩
    obtain hieee | ⟨hfs, hft, htiny⟩ := hsubnormal
    · cases hieee.symm.trans hmode
    · obtain (h | h) | ⟨hfinite, h⟩ := harises
      · exact Bool.false_ne_true (hfs.symm.trans h)
      · exact Bool.false_ne_true (hft.symm.trans h)
      · exact htiny hfinite h
  exact ⟨_, leavesInFpr_fpOp op fd fs ft husable (fpRaised_eq_none_of_no_enables hnone hnot),
    FpResult.contents_cases _⟩

end Sys2Proof.Machine
end

section
/-! PROOFS. The frame of a whole run (70_reset_and_hazards.md R260; 20_memory.md R50, R54). -/

namespace Sys2Proof.Machine

/-- Settles O17: the three parts of `State.ChangesOnlyWritten`, which a run keeps. -/
theorem wholeRunFrame : Obligations.WholeRunFrame := by
  unfold Obligations.WholeRunFrame
  intro n s t hrun
  obtain ⟨params, grows, read⟩ := runsTo_changesOnlyWritten hrun
  exact ⟨params, grows, read⟩

end Sys2Proof.Machine
end
